-- ==== Sys2Proof/Word.lean ====
section
/-! DEFINITION. The word types of the framer: the 10-bit command word (30_encoding.md R70), the data byte (R72) and the
5-bit status vector (10_state.md R33). -/

namespace Sys2Proof

/-- One word on the command port, `cmd[9:0]` (R70). -/
abbrev CommandWord := BitVec 10

/-- A data byte, a segment byte or a TM1637 command byte: 8 bits, unsigned (R72). -/
abbrev Byte := BitVec 8

/-- The `status` output, bits 4..0 (R33). -/
abbrev StatusWord := BitVec 5

end Sys2Proof
end

