-- ==== Sys2Proof/Config.lean ====
section
/-! DEFINITION. What one build or one installation fixes and the spec leaves open (00_scope.md R8, 45_host-sequences.md
R131), and the free values of the environment (10_state.md R22). Every opaque constant here has no body: no proof can see
its value. -/

namespace Sys2Proof

/-- The build-time option ACK_SAMPLE (R3, R31). -/
inductive AckSample where
  /-- The legacy framer: the acknowledgment is clocked but never read. -/
  | absent
  /-- One observe-only sample per WRITE (R111). -/
  | present
  deriving DecidableEq, Repr, Inhabited

/-- The implementation parameters of R8. State carries one such record and no step writes it (log 2). -/
structure Build where
  /-- `U`, clock cycles per timing unit. -/
  U : Nat
  /-- `T_CLK` in milliseconds (log 3). -/
  tClk : Rat
  /-- `T_UNIT` in milliseconds (log 3). -/
  tUnit : Rat
  /-- `ACK_SAMPLE`. -/
  ackSample : AckSample
  deriving DecidableEq, Repr

/-- The constraints of R8: `T_CLK > 0`, `T_UNIT >= 1 ms`, `U >= 1` and `U * T_CLK >= T_UNIT`. -/
abbrev Build.wf (b : Build) : Prop :=
  0 < b.tClk ∧ 1 ≤ b.tUnit ∧ 1 ≤ b.U ∧ b.tUnit ≤ (b.U : Rat) * b.tClk

/-- `U - 1`; so `U >= 1` by construction. -/
opaque Config.unitCyclesLessOne : Nat

/-- How far T_UNIT lies above its least value 1 ms; read as its absolute value. -/
opaque Config.unitExcess : Rat

/-- How far `U * T_CLK` lies above T_UNIT; read as its absolute value. -/
opaque Config.clockSlack : Rat

/-- ACK_SAMPLE of this build. -/
opaque Config.ackSample : AckSample

/-- `U` of this build. -/
def Config.unitCycles : Nat := Config.unitCyclesLessOne + 1

/-- `T_UNIT` of this build, at least 1 ms. -/
def Config.timeUnit : Rat := 1 + |Config.unitExcess|

/-- `T_CLK` of this build, long enough that `U` cycles last `T_UNIT`. -/
def Config.clockPeriod : Rat := (Config.timeUnit + |Config.clockSlack|) / (Config.unitCycles : Rat)

/-- The build the machine has at reset: any build R8 allows. -/
def Config.build : Build where
  U := Config.unitCycles
  tClk := Config.clockPeriod
  tUnit := Config.timeUnit
  ackSample := Config.ackSample

/-- `ext_clk_pull` at the edge with the given number: a draw under no law (R22, I4). -/
opaque Config.extClkPull : Nat → Bool

/-- `chip_dio_pull` at the edge with the given number: a draw under no law (R22, I4). -/
opaque Config.chipDioPull : Nat → Bool

/-- CMD_DATA (R131, D15). -/
opaque Config.cmdData : Byte

/-- CMD_ADDR0 (R131, D15). -/
opaque Config.cmdAddr0 : Byte

/-- The high nibble of CMD_DISPCTRL; its low nibble is 0 (R131). -/
opaque Config.cmdDispctrlHigh : BitVec 4

/-- BRIGHTNESS_INIT, 0..15 (R131, D21). -/
opaque Config.brightnessInit : Fin 16

/-- DP_INIT (R131, D21). -/
opaque Config.dpInit : Bool

end Sys2Proof
end

