-- ==== Sys2Proof/Machine/CharTable.lean ====
section
/-! DEFINITION. The host's character table (45_host-sequences.md R133, R142, R143): a list of characters with their
segment bytes, in one canonical form (character codes strictly rising), so that equal tables are equal lists. -/

namespace Sys2Proof.Machine

/-- A mapping from a single character to a segment byte (R133). -/
abbrev CharTable := List (Char × Byte)

/-- Codes strictly rising: "Keys unique" (R133), and one list per table (log 12). -/
def CharTable.sorted : CharTable → Bool
  | [] => true
  | [_] => true
  | a :: b :: rest => decide (a.1.toNat < b.1.toNat) && CharTable.sorted (b :: rest)

/-- `charMap[c]`, or `none` when the lookup misses (R135). -/
def CharTable.get? : CharTable → Char → Option Byte
  | [], _ => none
  | (k, v) :: rest, c => if k = c then some v else CharTable.get? rest c

/-- `charMap[c] <- b`, inserting or overwriting (R142). -/
def CharTable.put : CharTable → Char → Byte → CharTable
  | [], c, b => [(c, b)]
  | (k, v) :: rest, c, b =>
    if c.toNat < k.toNat then (c, b) :: (k, v) :: rest
    else if k.toNat < c.toNat then (k, v) :: CharTable.put rest c b
    else (c, b) :: rest

/-- Seed a table with entries; re-seeding "must not duplicate or corrupt the table" (R143). -/
def CharTable.seed (t : CharTable) : List (Char × Byte) → CharTable
  | [] => t
  | (c, b) :: rest => CharTable.seed (t.put c b) rest

/-- The 19 entries of the default character table, as R143 transcribes them (I12: not to be corrected). -/
def defaultCharTable : List (Char × Byte) :=
  [('0', 0x3F#8), ('1', 0x06#8), ('2', 0x5B#8), ('3', 0x4F#8), ('4', 0x66#8),
   ('5', 0x6D#8), ('6', 0x7D#8), ('7', 0x07#8), ('8', 0x7F#8), ('9', 0x6F#8),
   ('A', 0x77#8), ('B', 0x7F#8), ('C', 0x39#8), ('D', 0x3F#8), ('E', 0x79#8)] ++
  [('F', 0x71#8), (' ', 0x00#8), ('-', 0x40#8), ('_', 0x08#8)]

end Sys2Proof.Machine
end

