-- ==== Sys2Proof/Syntax.lean ====
section
/-! DEFINITION. The syntax of everything a host can say: the framer's commands (one constructor per row of
spec/opcode_table.json), the assembler statements of 30_encoding.md R75, the calls of the Display Session
(45_host-sequences.md R135-R146), and the moves of a host on the command port (R149). -/

namespace Sys2Proof

/-- The framer's commands, as the decoder of R76 names them. START and STOP carry no operand: `cmd[7:0]` is ignored
(R74). A reserved word keeps its `data` in the syntax only; the framer does not keep it (R171). -/
inductive Instr where
  /-- `op = 00`, R100. -/
  | start
  /-- `op = 01`, R102. -/
  | stop
  /-- `op = 10`, R110: send the byte `b`. -/
  | write (b : Byte)
  /-- `op = 11`, R94. -/
  | reserved (data : Byte)
  deriving DecidableEq, Repr

/-- The pin numbering schemes the source names (R7, D20). The framer gives them no meaning. -/
inductive NumberingScheme where
  | broadcom
  | wiringPi
  | physical
  deriving DecidableEq, Repr

/-- The host-level operations of 45_host-sequences.md. They are software calls, not framer commands (R130). -/
inductive Call where
  /-- `setup` (R145). `scheme = none` is an unspecified scheme; `portInitOk` is what the external GPIO Port's own
  initialisation reports (R7: an external collaborator), so it is an input of the call. -/
  | setup (scheme : Option NumberingScheme) (clockPin dataPin : Nat) (portInitOk : Bool)
  /-- `getInstance()` (R146). -/
  | getInstance
  /-- `show(chars)` (R135-R137). -/
  | showChars (chars : List Char)
  /-- `setDoublePoint`, also named `setShowDoublePoint` (R139, C5). -/
  | setDoublePoint (value autoFlush : Bool)
  /-- `setBrightness` (R140): any integer may be passed. -/
  | setBrightness (value : Int) (autoFlush : Bool)
  /-- `getBrightness()` (R141). -/
  | getBrightness
  /-- `isShowDoublePoint()` (R141). -/
  | isShowDoublePoint
  /-- `addCharacter(char, byte)` (R142). -/
  | addCharacter (char : Char) (byte : Byte)
  deriving DecidableEq, Repr

/-- What a host does at the command port (R149). -/
inductive HostMove where
  /-- Put any values on `cmd_valid` and `cmd` for one edge, kept or dropped as the host likes (R95, R149). -/
  | drive (valid : Bool) (cmd : CommandWord)
  /-- Offer one word and hold it until an edge accepts it (the duty of R149). -/
  | issue (cmd : CommandWord)
  /-- Make one Display Session call and issue the words it needs. -/
  | call (c : Call)
  deriving DecidableEq, Repr

/-- The assembler statements of R75 with the host macros of R132-R140; immediates are as written, checked later.
The arguments of SHOW, SETBRIGHT and SETDP are checked by the session, not by the assembler (R135, R140). -/
inductive Asm where
  | start
  | stop
  | write (imm : Nat)
  | word (imm : Nat)
  | frame (imms : List Nat)
  | showPseudo (chars : List Char)
  | setBright (value : Int) (autoFlush : Bool)
  | setDp (value autoFlush : Bool)
  deriving DecidableEq, Repr

end Sys2Proof
end

