-- ==== Sys2Proof/Machine/State.lean ====
section
/-! DEFINITION. The state of the machine: the framer's registers (10_state.md R24-R31), its build parameters (00_scope.md
R8), the host agent (45_host-sequences.md R133, R149) and the inputs the outside presents at the coming edges (10_state.md
R20, R22). Also the reasons a step can stop, and the state after reset (70_reset_and_hazards.md R190). -/

namespace Sys2Proof.Machine

/-- Reasons a step stops with a fault: none. "The step never faults and never refuses" (R93), and the framer has no traps
(R170); errors are the sticky flags. Nobody raises a fault, so the type has no constructor (safe, log 17). -/
inductive Fault where
  deriving DecidableEq, Repr

/-- Reasons a step is refused. -/
inductive Refusal where
  /-- Only an arm of `exec` without a meaning would answer this; every arm has its meaning, so nobody raises it (safe). -/
  | notModelled (mnemonic : String)
  deriving DecidableEq, Repr

/-- The two bus lines (R2). -/
inductive Line where
  | clk
  | dio
  deriving DecidableEq, Repr

/-- The two sticky error flags (R30, R171). -/
inductive StickyFlag where
  | illegal
  | seqerr
  deriving DecidableEq, Repr

/-- The eleven legal values of `phase` (R27); "a model's phase type has exactly the eleven values". -/
inductive Phase where
  /-- No command in progress. -/
  | idle
  /-- START drove DIO low; a Wait runs. -/
  | startW
  /-- STOP drove DIO low; a Wait runs. -/
  | stopW0
  /-- STOP released CLK; a Wait runs. -/
  | stopW1
  /-- STOP released DIO; a Wait runs. -/
  | stopW2
  /-- WRITE drove CLK low for a data bit; a Wait runs. -/
  | bitLowW
  /-- WRITE set DIO for the bit and shifted `sr`; one cycle, no Wait. -/
  | bitData
  /-- WRITE released CLK for the bit; a Wait runs. -/
  | bitHighW
  /-- WRITE drove CLK low to begin the ack cycle; a Wait runs. -/
  | ackLowW
  /-- WRITE released CLK for the ack clock; a Wait runs. -/
  | ackHighW
  /-- WRITE drove CLK low again; a Wait runs. -/
  | ackEndW
  deriving DecidableEq, Repr

/-- The framer's registers (R24-R31); the framer has no others (R35). -/
structure Framer where
  /-- `clk_oe` (R24): true drives CLK low. -/
  clkOe : Bool
  /-- `dio_oe` (R25): true drives DIO low. -/
  dioOe : Bool
  /-- `sr` (R26). -/
  sr : Byte
  /-- `phase` (R27). -/
  phase : Phase
  /-- `wcnt` (R28), at most `U - 1` (log 4). -/
  wcnt : Nat
  /-- `bitcnt` (R29), at most 8. -/
  bitcnt : BitVec 4
  /-- `illegal` (R30). -/
  illegal : Bool
  /-- `seqerr` (R30). -/
  seqerr : Bool
  /-- `ack_valid` (R31). -/
  ackValid : Bool
  /-- `ack_level` (R31). -/
  ackLevel : Bool
  deriving DecidableEq, Repr

/-- Every register at its reset value (R190). -/
def Framer.reset : Framer where
  clkOe := false
  dioOe := false
  sr := 0x00#8
  phase := .idle
  wcnt := 0
  bitcnt := 0#4
  illegal := false
  seqerr := false
  ackValid := false
  ackLevel := false

/-- Exactly four things in order: the characters last shown (R133) and the segment bytes of an update (R134). -/
structure Four (α : Type) where
  d0 : α
  d1 : α
  d2 : α
  d3 : α
  deriving DecidableEq, Repr

/-- The session state the host holds (R133). -/
structure Session where
  /-- `brightness`, 0..15. -/
  brightness : Fin 16
  /-- `doublePoint`. -/
  doublePoint : Bool
  /-- `lastShown`, exactly 4 characters. -/
  lastShown : Four Char
  /-- `charMap`. -/
  charMap : CharTable
  /-- `ready`: "false until setup succeeds exactly once". -/
  ready : Bool
  deriving DecidableEq, Repr

/-- The host-level parameters of R131 and the seed table of R143 (I12: a parameter with the transcribed default). -/
structure HostParams where
  cmdData : Byte
  cmdAddr0 : Byte
  cmdDispctrl : Byte
  seedTable : List (Char × Byte)
  deriving DecidableEq, Repr

/-- Why a host call fails with InvalidArgument (R147). -/
inductive ArgumentError where
  /-- `show` with a length other than 4 (R135). -/
  | badLength
  /-- `show` with a character not in the table, which the error names (R135). -/
  | unknownCharacter (c : Char)
  /-- `setBrightness` outside 0..15 (R140). -/
  | brightnessOutOfRange
  /-- `setup` with no numbering scheme (R145). -/
  | schemeUnspecified
  deriving DecidableEq, Repr

/-- Why a host call fails with IllegalState (R147). -/
inductive StateError where
  /-- An operation before setup has succeeded (R146). -/
  | notReady
  /-- `setup` called again after it has succeeded (R145). -/
  | alreadyReady
  deriving DecidableEq, Repr

/-- What a host call gives its caller. -/
inductive CallResult where
  /-- No call has been made yet. -/
  | noCall
  /-- The call succeeded and returns no value. -/
  | done
  /-- `getInstance` returned the one Display Session (R146). -/
  | theSession
  /-- A truth value: of `setup` (R145) or `isShowDoublePoint` (R141). -/
  | bool (b : Bool)
  /-- The brightness (R141). -/
  | level (n : Fin 16)
  | invalidArgument (e : ArgumentError)
  | illegalState (e : StateError)
  deriving DecidableEq, Repr

/-- The host agent (R13): its session, its parameters, and what it has still to do at the command port (log 8). -/
structure HostAgent where
  session : Session
  params : HostParams
  /-- The moves still to be made, first move first. -/
  script : List HostMove
  /-- The command words of the call in progress that no edge has accepted yet, oldest first. -/
  outbox : List CommandWord
  /-- What the last call returned. -/
  result : CallResult
  deriving DecidableEq, Repr

/-- What the outside presents at one rising edge beside the command port (R20, R22). -/
structure EdgeInput where
  /-- The port `rst`. -/
  rst : Bool
  /-- `ext_clk_pull`: another agent holds CLK low. -/
  extClkPull : Bool
  /-- `chip_dio_pull`: another agent holds DIO low. -/
  chipDioPull : Bool
  deriving DecidableEq, Repr

/-- The state of the machine. -/
structure State where
  /-- The framer's registers. -/
  framer : Framer
  /-- The build parameters; no step writes them (log 2). -/
  build : Build
  /-- The host agent. -/
  host : HostAgent
  /-- The inputs of the coming edges, next edge first; past its end the draws are free values (log 6). -/
  env : List EdgeInput
  /-- The number of edges so far: the model's own counter, index of the free draws (log 7). -/
  edge : Nat
  deriving DecidableEq, Repr

/-- The session before setup (R131, R133; log 12, 13). `lastShown` is "----" (D16). -/
def Session.reset : Session where
  brightness := Config.brightnessInit
  doublePoint := Config.dpInit
  lastShown := ⟨'-', '-', '-', '-'⟩
  charMap := []
  ready := false

/-- The host-level parameters at reset: any values R131 allows, and the default seed table. -/
def HostParams.reset : HostParams where
  cmdData := Config.cmdData
  cmdAddr0 := Config.cmdAddr0
  cmdDispctrl := Config.cmdDispctrlHigh ++ 0#4
  seedTable := defaultCharTable

/-- The machine right after reset (R190): every register at its reset value, the host quiet and not set up, no inputs
listed (log 6, 7, 8, 15). -/
def State.reset : State where
  framer := Framer.reset
  build := Config.build
  host := { session := Session.reset, params := HostParams.reset, script := [], outbox := [], result := .noCall }
  env := []
  edge := 0

end Sys2Proof.Machine
end

