-- ==== Sys2Proof/Machine/Ops.lean ====
section
/-! DEFINITION. The named operations on the framer's registers: the primitives of 00_scope.md R10 (Drive, Release, Wait,
raise, phase), the reset of 70_reset_and_hazards.md R190, and the lift of an operation on the framer to the whole state.
The framer has no traps (60_exceptions.md R170): `raise` is the one shared operation by which an error is recorded, and
nothing returns from it. The framer has no memory (20_memory.md R50), so no operation here reads or writes one. -/

namespace Sys2Proof.Machine

/-- `Drive(L)`: `L_oe <- 1` (R10, R21). -/
def Framer.drive (f : Framer) (l : Line) : Framer :=
  match l with
  | .clk => { f with clkOe := true }
  | .dio => { f with dioOe := true }

/-- `Release(L)`: `L_oe <- 0` (R10, R21). -/
def Framer.release (f : Framer) (l : Line) : Framer :=
  match l with
  | .clk => { f with clkOe := false }
  | .dio => { f with dioOe := false }

/-- `phase <- P` (R10). -/
def Framer.enter (f : Framer) (p : Phase) : Framer := { f with phase := p }

/-- The start of a `Wait()`: `wcnt <- U - 1; phase <- P` (R92). -/
def Framer.startWait (f : Framer) (U : Nat) (p : Phase) : Framer := { f with wcnt := U - 1, phase := p }

/-- `WAITING(next)` of R93: count down, or at 0 perform the next action. -/
def Framer.waiting (f : Framer) (next : Framer → Framer) : Framer :=
  if f.wcnt ≠ 0 then { f with wcnt := f.wcnt - 1 } else next f

/-- `if cause: raise F` (R10): the flag is set and stays set (R174). -/
def Framer.raise (f : Framer) (flag : StickyFlag) (cause : Bool) : Framer :=
  match flag with
  | .illegal => { f with illegal := f.illegal || cause }
  | .seqerr => { f with seqerr := f.seqerr || cause }

/-- Change the framer's registers and nothing else of the state. -/
def State.onFramer (s : State) (g : Framer → Framer) : State := { s with framer := g s.framer }

/-- The framer's part of an edge with `rst = 1`: every register takes its reset value, whatever the phase (R190). -/
def resetEdge (s : State) : State := s.onFramer fun _ => Framer.reset

/-- The number of a phase in the 4-bit register (R27). -/
def Phase.code : Phase → BitVec 4
  | .idle => 0#4
  | .startW => 1#4
  | .stopW0 => 2#4
  | .stopW1 => 3#4
  | .stopW2 => 4#4
  | .bitLowW => 5#4
  | .bitData => 6#4
  | .bitHighW => 7#4
  | .ackLowW => 8#4
  | .ackHighW => 9#4
  | .ackEndW => 10#4

end Sys2Proof.Machine
end

