-- ==== Sys2Proof/Machine/Flags.lean ====
section
/-! DEFINITION. The flags: the test of START's precondition (41_framing.md R100), the acknowledgment sample (42_byte-write.md
R111), and the `status` and `cmd_ready` outputs (10_state.md R32, R33). -/

namespace Sys2Proof.Machine

/-- START's precondition fails: judged on the framer's own enables, not on the lines (R100, D19). -/
def Framer.startPreconditionFails (f : Framer) : Bool := f.clkOe || f.dioOe

/-- The acknowledgment sample: nothing when ACK_SAMPLE = ABSENT, else `ack_level <- dio_in; ack_valid <- ~dio_oe` (R111). -/
def Framer.sampleAck (f : Framer) (a : AckSample) (dioIn : Bool) : Framer :=
  match a with
  | .absent => f
  | .present => { f with ackLevel := dioIn, ackValid := !f.dioOe }

/-- `cmd_ready = 1` exactly when `phase = IDLE` (R32). -/
def Framer.cmdReady (f : Framer) : Bool := f.phase == .idle

/-- `busy = ~cmd_ready` (R32). -/
def Framer.busy (f : Framer) : Bool := !f.cmdReady

/-- A bit of the acknowledgment sample as a reader of `status` sees it: hardwired 0 when ACK_SAMPLE = ABSENT (R33). -/
def ackBit (a : AckSample) (b : Bool) : Bool :=
  match a with
  | .absent => false
  | .present => b

/-- The `status` output, bits 4..0 = ack_level, ack_valid, seqerr, illegal, busy (R33). -/
def Framer.status (f : Framer) (a : AckSample) : StatusWord :=
  BitVec.ofBool (ackBit a f.ackLevel) ++ BitVec.ofBool (ackBit a f.ackValid) ++
    BitVec.ofBool f.seqerr ++ BitVec.ofBool f.illegal ++ BitVec.ofBool f.busy

end Sys2Proof.Machine
end

