-- ==== Sys2Proof/Machine/Operands.lean ====
section
/-! DEFINITION. The one operand of the machine, WRITE's byte (30_encoding.md R72), in the shift register: loading it,
placing its bits least significant first (20_memory.md R52, R53), and counting them (10_state.md R29). START, STOP and
reserved words have no operand (R74, R94). -/

namespace Sys2Proof.Machine

/-- Acceptance of WRITE: `sr <- b; bitcnt <- 0` (R110). -/
def Framer.loadByte (f : Framer) (b : Byte) : Framer := { f with sr := b, bitcnt := 0#4 }

/-- `dio_oe <- ~sr[0]; sr <- sr >> 1` at one edge: a 0 is driven, a 1 is released (R53, R93). -/
def Framer.placeBit (f : Framer) : Framer := { f with dioOe := !f.sr.getLsbD 0, sr := f.sr >>> 1 }

/-- `bitcnt <- bitcnt + 1` (R29). -/
def Framer.countBit (f : Framer) : Framer := { f with bitcnt := f.bitcnt + 1#4 }

/-- `bitcnt <- 0` at the end of a WRITE (R29). -/
def Framer.clearCount (f : Framer) : Framer := { f with bitcnt := 0#4 }

end Sys2Proof.Machine
end

