-- ==== Sys2Proof/Machine/ByteWrite.lean ====
section
/-! DEFINITION. WRITE (42_byte-write.md R110, R111): the accepting edge and the later edges of its phases, arm by arm as
40_command-cycle.md R93 gives them. -/

namespace Sys2Proof.Machine

/-- WRITE, accepting edge: load the byte; bit 0: Drive(CLK); Wait() (R110). It has no precondition (R115). -/
def execWrite (b : Byte) (s : State) : Host.Outcome State Fault Refusal :=
  .next (s.onFramer fun f => ((f.loadByte b).drive .clk).startWait s.build.U .bitLowW)

/-- Phase BIT_LOW_W: set DIO from the bit and shift; no Wait follows (R97). -/
def bitLowWEdge (f : Framer) : Framer := f.waiting fun g => g.placeBit.enter .bitData

/-- Phase BIT_DATA, one edge: Release(CLK); count the bit; Wait(). -/
def bitDataEdge (U : Nat) (f : Framer) : Framer := (f.release .clk).countBit.startWait U .bitHighW

/-- Phase BIT_HIGH_W: Drive(CLK); Wait(); after the eighth bit this is the first clock low of the ack cycle. -/
def bitHighWEdge (U : Nat) (f : Framer) : Framer :=
  f.waiting fun g => (g.drive .clk).startWait U (if g.bitcnt = 8#4 then .ackLowW else .bitLowW)

/-- Phase ACK_LOW_W: Release(CLK); Wait(). -/
def ackLowWEdge (U : Nat) (f : Framer) : Framer :=
  f.waiting fun g => (g.release .clk).startWait U .ackHighW

/-- Phase ACK_HIGH_W: the sample, if the build has it (R111); Drive(CLK); Wait(). -/
def ackHighWEdge (b : Build) (dioIn : Bool) (f : Framer) : Framer :=
  f.waiting fun g => ((g.sampleAck b.ackSample dioIn).drive .clk).startWait b.U .ackEndW

/-- Phase ACK_END_W: the Wait ends the command; `bitcnt <- 0`. -/
def ackEndWEdge (f : Framer) : Framer := f.waiting fun g => g.clearCount.enter .idle

end Sys2Proof.Machine
end

