-- ==== Sys2Proof/Machine/Framing.lean ====
section
/-! DEFINITION. START and STOP (41_framing.md R100, R102): the accepting edge of each, and the later edges of their waiting
phases, arm by arm as 40_command-cycle.md R93 gives them. -/

namespace Sys2Proof.Machine

/-- START, accepting edge: raise `seqerr` if an enable is 1; Drive(DIO); Wait() (R100). `clk_oe` is not written. -/
def execStart (s : State) : Host.Outcome State Fault Refusal :=
  .next (s.onFramer fun f =>
    ((f.raise .seqerr f.startPreconditionFails).drive .dio).startWait s.build.U .startW)

/-- Phase START_W: the Wait ends the command. -/
def startWEdge (f : Framer) : Framer := f.waiting fun g => g.enter .idle

/-- STOP, accepting edge: Drive(DIO); Wait() (R102). -/
def execStop (s : State) : Host.Outcome State Fault Refusal :=
  .next (s.onFramer fun f => (f.drive .dio).startWait s.build.U .stopW0)

/-- Phase STOP_W0: Release(CLK); Wait(). -/
def stopW0Edge (U : Nat) (f : Framer) : Framer :=
  f.waiting fun g => (g.release .clk).startWait U .stopW1

/-- Phase STOP_W1: Release(DIO); Wait(). -/
def stopW1Edge (U : Nat) (f : Framer) : Framer :=
  f.waiting fun g => (g.release .dio).startWait U .stopW2

/-- Phase STOP_W2: the Wait ends the command. -/
def stopW2Edge (f : Framer) : Framer := f.waiting fun g => g.enter .idle

end Sys2Proof.Machine
end

