-- ==== Sys2Proof/Machine/Reserved.lean ====
section
/-! DEFINITION. Reserved command words (40_command-cycle.md R94). -/

namespace Sys2Proof.Machine

/-- A reserved word raises `illegal` and does nothing else; its data is not kept (R94, R171). -/
def execReserved (_data : Byte) (s : State) : Host.Outcome State Fault Refusal :=
  .next (s.onFramer fun f => f.raise .illegal true)

end Sys2Proof.Machine
end

