-- ==== Sys2Proof/Machine/Dispatch.lean ====
section
/-! DEFINITION. The accepting edge of each command: one arm per constructor of Instr (40_command-cycle.md R93, arm IDLE). -/

namespace Sys2Proof.Machine

def exec (i : Instr) (s : State) : Host.Outcome State Fault Refusal :=
  match i with
  | .start => Sys2Proof.Machine.execStart s
  | .stop => Sys2Proof.Machine.execStop s
  | .write b => Sys2Proof.Machine.execWrite b s
  | .reserved data => Sys2Proof.Machine.execReserved data s

end Sys2Proof.Machine
end

