-- ==== Sys2Proof/Machine/Phases.lean ====
section
/-! DEFINITION. The edge of a command in progress: the arms of `case phase` in 40_command-cycle.md R93 but IDLE. -/

namespace Sys2Proof.Machine

/-- One edge of the framer with `rst = 0` and no command accepted (R93). `dioIn` is the level of DIO at the edge. -/
def phaseEdge (b : Build) (dioIn : Bool) (f : Framer) : Framer :=
  match f.phase with
  | .idle => f
  | .startW => startWEdge f
  | .stopW0 => stopW0Edge b.U f
  | .stopW1 => stopW1Edge b.U f
  | .stopW2 => stopW2Edge f
  | .bitLowW => bitLowWEdge f
  | .bitData => bitDataEdge b.U f
  | .bitHighW => bitHighWEdge b.U f
  | .ackLowW => ackLowWEdge b.U f
  | .ackHighW => ackHighWEdge b dioIn f
  | .ackEndW => ackEndWEdge f

end Sys2Proof.Machine
end

