-- ==== Sys2Proof/WellFormed.lean ====
section
/-! DEFINITION. Well-formedness: which commands have an encoding (30_encoding.md R76) and which assembler statements the
assembler takes (R75, R132). -/

namespace Sys2Proof

/-- A command the codec encodes: `encode` "is not defined for RESERVED" (R76). Every byte is a legal operand of WRITE
(R72), so the type already checks the rest. -/
def Instr.wf : Instr → Bool
  | .start => true
  | .stop => true
  | .write _ => true
  | .reserved _ => false

/-- The assembler's checks: an immediate of WRITE lies in 0..255, a raw word in 0..1023 (R75), and a FRAME carries at
least one byte (R132). The arguments of the other macros are checked by the session, not by the assembler (R135, R140). -/
def Asm.wf : Asm → Bool
  | .start => true
  | .stop => true
  | .write imm => decide (imm < 256)
  | .word imm => decide (imm < 1024)
  | .frame imms => !imms.isEmpty && imms.all fun imm => decide (imm < 256)
  | .showPseudo _ => true
  | .setBright _ _ => true
  | .setDp _ _ => true

end Sys2Proof
end

