-- ==== Sys2Proof/Decode.lean ====
section
/-! DEFINITION. The codec of 30_encoding.md: the decoder, total on all 1024 words (R71), and after it the encoder (R76). -/

namespace Sys2Proof

/-- `cmd[9:8]` (R70). -/
def opField (w : CommandWord) : BitVec 2 := w.extractLsb' 8 2

/-- `cmd[7:0]` (R70). -/
def dataField (w : CommandWord) : Byte := w.extractLsb' 0 8

/-- The decoder of R76, by the opcode map of R71. -/
def decode (w : CommandWord) : Instr :=
  if opField w = 0b00#2 then .start
  else if opField w = 0b01#2 then .stop
  else if opField w = 0b10#2 then .write (dataField w)
  else .reserved (dataField w)

/-- Why a number is no command word. -/
inductive DecodeError where
  /-- The command port has ten lines (R20): a number of 1024 or more is no word on it. -/
  | widerThanThePort
  deriving DecidableEq, Repr

/-- Decode a number: refused by name when it does not fit the ten lines of `cmd`. -/
def decodeNat (w : Nat) : Except DecodeError Instr :=
  if w < 1024 then .ok (decode (BitVec.ofNat 10 w)) else .error .widerThanThePort

/-- The opcode table numbers the bits of its one 10-bit word as R70 does; the row's length adds nothing (log 16). -/
def decodeTableWord (_nbits w : Nat) : Option Instr :=
  match decodeNat w with
  | .ok i => some i
  | .error _ => none

/-- The word `{op, data}` (R70), as R76 writes it: `(op << 8) | zext_10(data)`. -/
def commandWord (op : BitVec 2) (data : Byte) : CommandWord := (op.setWidth 10 <<< 8) ||| data.setWidth 10

/-- The encoder of R76, "not defined for RESERVED". -/
def encode : Instr → Option CommandWord
  | .start => some (commandWord 0b00#2 0x00#8)
  | .stop => some (commandWord 0b01#2 0x00#8)
  | .write b => some (commandWord 0b10#2 b)
  | .reserved _ => none

/-- The words of `FRAME b0, ..., b(n-1)`: START, one WRITE per byte, STOP (R132). -/
def frameWords (bytes : List Byte) : List CommandWord :=
  commandWord 0b00#2 0x00#8 :: (bytes.map (commandWord 0b10#2) ++ [commandWord 0b01#2 0x00#8])

end Sys2Proof
end

