-- ==== Sys2Proof/Machine/Session.lean ====
section
/-! DEFINITION. The Display Session of the host (45_host-sequences.md R130-R147): what each call does to the session, what it
returns, and which command words it issues. It is host software: none of it adds state or behaviour to the framer (R130). -/

namespace Sys2Proof.Machine

/-- The four in index order. -/
def Four.toList {α : Type} (x : Four α) : List α := [x.d0, x.d1, x.d2, x.d3]

/-- What a call does. -/
structure CallOutcome where
  /-- The session after the call. -/
  session : Session
  /-- What the caller is given. -/
  result : CallResult
  /-- The command words the call issues, in order. -/
  words : List CommandWord
  /-- The call resets the framer (setup's last step, R145). -/
  resetsFramer : Bool
  deriving DecidableEq, Repr

/-- A call that issues nothing and resets nothing. -/
def CallOutcome.quiet (s : Session) (r : CallResult) : CallOutcome :=
  { session := s, result := r, words := [], resetsFramer := false }

/-- Look the characters up in order; the first miss is named (R135). -/
def lookUpAll (t : CharTable) : List Char → Except ArgumentError (List Byte)
  | [] => .ok []
  | c :: cs =>
    match t.get? c with
    | none => .error (.unknownCharacter c)
    | some b =>
      match lookUpAll t cs with
      | .error e => .error e
      | .ok bs => .ok (b :: bs)

/-- The validation of `show` (R135): the length first, then every lookup. -/
def validateShow (t : CharTable) (chars : List Char) : Except ArgumentError (Four Char × Four Byte) :=
  match chars with
  | [c0, c1, c2, c3] =>
    match lookUpAll t chars with
    | .ok [b0, b1, b2, b3] => .ok (⟨c0, c1, c2, c3⟩, ⟨b0, b1, b2, b3⟩)
    | .ok _ => .error .badLength
    | .error e => .error e
  | _ => .error .badLength

/-- `if doublePoint: s[1] <- s[1] | 0x80`; the other three are untouched (R136). -/
def segmentBytes (doublePoint : Bool) (seg : Four Byte) : Four Byte :=
  if doublePoint then { seg with d1 := seg.d1 ||| 0x80#8 } else seg

/-- `CMD_DISPCTRL | zext_8(brightness)` (R138). -/
def displayControlByte (p : HostParams) (brightness : Fin 16) : Byte :=
  p.cmdDispctrl ||| BitVec.ofNat 8 brightness.val

/-- The three frames of an update (R137). -/
def showWords (p : HostParams) (brightness : Fin 16) (seg : Four Byte) : List CommandWord :=
  frameWords [p.cmdData] ++ frameWords (p.cmdAddr0 :: seg.toList) ++
    frameWords [displayControlByte p brightness]

/-- `show(chars)` of a ready session (R135-R137). -/
def performShow (p : HostParams) (s : Session) (chars : List Char) : CallOutcome :=
  match validateShow s.charMap chars with
  | .error e => .quiet s (.invalidArgument e)
  | .ok (four, seg) =>
    { session := { s with lastShown := four }
      result := .done
      words := showWords p s.brightness (segmentBytes s.doublePoint seg)
      resetsFramer := false }

/-- The end of a setter: `show(lastShown)` if `autoFlush`, else no command (R139, R140). -/
def flush (p : HostParams) (s : Session) (autoFlush : Bool) : CallOutcome :=
  if autoFlush then performShow p s s.lastShown.toList else .quiet s .done

/-- `setDoublePoint(value, autoFlush)` (R139). -/
def performSetDoublePoint (p : HostParams) (s : Session) (value autoFlush : Bool) : CallOutcome :=
  flush p { s with doublePoint := value } autoFlush

/-- `setBrightness(value, autoFlush)` (R140). -/
def performSetBrightness (p : HostParams) (s : Session) (value : Int) (autoFlush : Bool) : CallOutcome :=
  if value < 0 ∨ 15 < value then .quiet s (.invalidArgument .brightnessOutOfRange)
  else flush p { s with brightness := Fin.ofNat 16 value.toNat } autoFlush

/-- `setup` (R145), step by step: already ready, no scheme, seed the table, the Port's own report, then release the pins
(the framer's reset) and become ready. The pins are bound at integration and are no state (R34, D20). -/
def performSetup (p : HostParams) (s : Session) (scheme : Option NumberingScheme) (portInitOk : Bool) : CallOutcome :=
  if s.ready then .quiet s (.illegalState .alreadyReady)
  else
    match scheme with
    | none => .quiet s (.invalidArgument .schemeUnspecified)
    | some _ =>
      let seeded := { s with charMap := s.charMap.seed p.seedTable }
      if portInitOk then
        { session := { seeded with ready := true }, result := .bool true, words := [], resetsFramer := true }
      else .quiet seeded (.bool false)

/-- An operation of the Display Session: IllegalState before setup (R146). -/
def whenReady (s : Session) (o : CallOutcome) : CallOutcome :=
  if s.ready then o else .quiet s (.illegalState .notReady)

/-- What each call does (R135-R146). -/
def performCall (p : HostParams) (s : Session) (c : Call) : CallOutcome :=
  match c with
  | .setup scheme _ _ portInitOk => performSetup p s scheme portInitOk
  | .getInstance => whenReady s (.quiet s .theSession)
  | .showChars chars => whenReady s (performShow p s chars)
  | .setDoublePoint value autoFlush => whenReady s (performSetDoublePoint p s value autoFlush)
  | .setBrightness value autoFlush => whenReady s (performSetBrightness p s value autoFlush)
  | .getBrightness => whenReady s (.quiet s (.level s.brightness))
  | .isShowDoublePoint => whenReady s (.quiet s (.bool s.doublePoint))
  | .addCharacter char byte => whenReady s (.quiet { s with charMap := s.charMap.put char byte } .done)

end Sys2Proof.Machine
end

