-- ==== Sys2Proof/Machine/HostPort.lean ====
section
/-! DEFINITION. The host agent at the command port (45_host-sequences.md R149): what it puts on `cmd_valid`, `cmd` and `rst`
at the next edge, and what it has left to do after it. -/

namespace Sys2Proof.Machine

/-- One edge of the host: the port values it presents, and its state after the edge. -/
structure HostTurn where
  cmdValid : Bool
  cmd : CommandWord
  rst : Bool
  /-- The host if the edge accepts the word. -/
  ifAccepted : HostAgent
  /-- The host if the edge accepts nothing. -/
  ifNot : HostAgent
  deriving DecidableEq, Repr

/-- Nothing offered: `cmd_valid = 0`. The word on `cmd` is then of no effect (R90). -/
def HostTurn.quiet (h : HostAgent) : HostTurn :=
  { cmdValid := false, cmd := 0#10, rst := false, ifAccepted := h, ifNot := h }

/-- A word offered and held until accepted (R149). -/
def HostTurn.offer (w : CommandWord) (ifAccepted ifNot : HostAgent) : HostTurn :=
  { cmdValid := true, cmd := w, rst := false, ifAccepted := ifAccepted, ifNot := ifNot }

/-- The edge at which the host makes a call: the port is quiet, and a successful setup resets the framer (log 9, 10). -/
def HostAgent.callTurn (h : HostAgent) (c : Call) (rest : List HostMove) : HostTurn :=
  let o := performCall h.params h.session c
  let h' := { h with session := o.session, result := o.result, outbox := o.words, script := rest }
  { HostTurn.quiet h' with rst := o.resetsFramer }

/-- What the host does at the next edge. The words of the call in progress come first, each held until accepted and
offered at the earliest edge; then the script's next move. A call waits until `cmd_ready = 1`: the calls are blocking
(R175, log 9). -/
def HostAgent.turn (h : HostAgent) (cmdReady : Bool) : HostTurn :=
  match h.outbox with
  | w :: ws => .offer w { h with outbox := ws } h
  | [] =>
    match h.script with
    | [] => .quiet h
    | .drive valid w :: rest =>
      { cmdValid := valid, cmd := w, rst := false
        ifAccepted := { h with script := rest }, ifNot := { h with script := rest } }
    | .issue w :: rest => .offer w { h with script := rest } h
    | .call c :: rest => if cmdReady then h.callTurn c rest else .quiet h

end Sys2Proof.Machine
end

