-- ==== Sys2Proof/Machine/Ports.lean ====
section
/-! DEFINITION. The ports and the lines (10_state.md R20-R23, R32, R33): what each input port carries at the next edge, what
each output port shows, the levels of the two bus lines, and what the inputs' holders have left after the edge. -/

namespace Sys2Proof.Machine

/-- The environment at an edge past the end of `env`: no reset, and free draws (R22, log 6). -/
def freeInput (edge : Nat) : EdgeInput :=
  { rst := false, extClkPull := Config.extClkPull edge, chipDioPull := Config.chipDioPull edge }

/-- What the environment presents at the `j`-th coming edge (0 is the next one). -/
def State.inputAt (s : State) (j : Nat) : EdgeInput :=
  match s.env[j]? with
  | some e => e
  | none => freeInput (s.edge + j)

/-- What the environment presents at the next edge. -/
def State.input (s : State) : EdgeInput := s.inputAt 0

/-- The output `cmd_ready` (R32). -/
def State.cmdReady (s : State) : Bool := s.framer.cmdReady

/-- The output `status` (R33). -/
def State.status (s : State) : StatusWord := s.framer.status s.build.ackSample

/-- The pad output value `clk_o`, constant 0 (R21). -/
def State.clkO (_s : State) : Bool := false

/-- The pad output value `dio_o`, constant 0 (R21). -/
def State.dioO (_s : State) : Bool := false

/-- What the host does at the next edge. -/
def State.hostTurn (s : State) : HostTurn := s.host.turn s.cmdReady

/-- The input `rst` at the next edge: asserted by the host's setup or from outside (R13, R20). -/
def State.rst (s : State) : Bool := s.input.rst || s.hostTurn.rst

/-- The input `cmd_valid` at the next edge. -/
def State.cmdValid (s : State) : Bool := s.hostTurn.cmdValid

/-- The input `cmd` at the next edge. -/
def State.cmd (s : State) : CommandWord := s.hostTurn.cmd

/-- The next edge accepts a command: `rst = 0`, `cmd_valid = 1` and `cmd_ready = 1` (R90). -/
def State.accepts (s : State) : Bool := !s.rst && s.cmdValid && s.cmdReady

/-- `CLK_line = 0 if (clk_oe = 1) or (ext_clk_pull = 1) else 1` (R22). -/
def State.clkLine (s : State) : Bool := !(s.framer.clkOe || s.input.extClkPull)

/-- `DIO_line = 0 if (dio_oe = 1) or (chip_dio_pull = 1) else 1` (R22). -/
def State.dioLine (s : State) : Bool := !(s.framer.dioOe || s.input.chipDioPull)

/-- The input `dio_in = DIO_line` (R22), with the enables as they stand before the edge (R10, log 21). -/
def State.dioIn (s : State) : Bool := s.dioLine

/-- The environment and the host after the next edge; the framer is not touched. -/
def State.advance (s : State) : State :=
  { s with
    host := if s.accepts then s.hostTurn.ifAccepted else s.hostTurn.ifNot
    env := s.env.tail
    edge := s.edge + 1 }

/-- The same state with `rst = 0` at the next edge as far as the environment goes. -/
def clearNextReset : List EdgeInput → List EdgeInput
  | [] => []
  | e :: rest => { e with rst := false } :: rest

/-- The state in which the next edge accepts the word `w`: the framer idle, no reset, `w` offered before anything else the
host would do (log 15). -/
def State.offering (s : State) (w : CommandWord) : State :=
  { s with
    framer := s.framer.enter .idle
    host := { s.host with outbox := w :: s.host.outbox }
    env := clearNextReset s.env }

end Sys2Proof.Machine
end

