-- ==== Sys2Proof/Machine/Step.lean ====
section
/-! DEFINITION. One step: one rising edge of `clk` (40_command-cycle.md R93), seen by the framer, the host and the
environment together; and a run of several steps. -/

namespace Sys2Proof.Machine

/-- One rising edge (R93): reset first; a command accepted in IDLE; else the phase's edge. The host and the environment
move on by one edge in every case. -/
def step (s : State) : Host.Outcome State Fault Refusal :=
  if s.rst then .next (resetEdge s.advance)
  else if s.accepts then exec (decode s.cmd) s.advance
  else .next (s.advance.onFramer (phaseEdge s.build s.dioIn))

/-- `k` steps, stopping at the first fault or refusal: the host's `Core.run`, written for this machine. -/
def run : Nat → State → Host.Outcome State Fault Refusal
  | 0, s => .next s
  | k + 1, s =>
    match step s with
    | .next t => run k t
    | .fault r => .fault r
    | .refused r => .refused r

/-- `s` with the given table word offered at the next edge (log 15, 16). -/
def State.withFetchWord (s : State) (_nbits w : Nat) : State := s.offering (BitVec.ofNat 10 w)

end Sys2Proof.Machine
end

