-- ==== Sys2Proof/Machine/Assembler.lean ====
section
/-! DEFINITION. The assembler of 30_encoding.md R75: the words and host moves of a statement, and the reading of one line of
its text. The host macros of 45_host-sequences.md R132-R140 are read too; their text form is the model's reading (log 23). -/

namespace Sys2Proof.Machine

/-- The host moves a statement stands for; nothing when the assembler refuses it (R75). -/
def assemble (a : Asm) : Option (List HostMove) :=
  if a.wf then
    match a with
    | .start => some [.issue (commandWord 0b00#2 0x00#8)]
    | .stop => some [.issue (commandWord 0b01#2 0x00#8)]
    | .write imm => some [.issue (commandWord 0b10#2 (BitVec.ofNat 8 imm))]
    | .word imm => some [.issue (BitVec.ofNat 10 imm)]
    | .frame imms => some ((frameWords (imms.map (BitVec.ofNat 8))).map .issue)
    | .showPseudo chars => some [.call (.showChars chars)]
    | .setBright value autoFlush => some [.call (.setBrightness value autoFlush)]
    | .setDp value autoFlush => some [.call (.setDoublePoint value autoFlush)]
  else none

/-- The part of a line before its comment (R75: comments start with `;`). -/
def dropComment : List Char → List Char
  | [] => []
  | c :: rest => if c = ';' then [] else c :: dropComment rest

/-- The words of a line, separated by blanks (log 23). -/
def splitBlanks : List Char → List (List Char)
  | [] => []
  | c :: rest =>
    if c = ' ' ∨ c = '\t' then splitBlanks rest
    else
      match rest with
      | [] => [[c]]
      | d :: _ =>
        if d = ' ' ∨ d = '\t' then [c] :: splitBlanks rest
        else
          match splitBlanks rest with
          | [] => [[c]]
          | w :: ws => (c :: w) :: ws

/-- The value of a digit in a base. -/
def digitValue (base : Nat) (c : Char) : Option Nat :=
  let n := c.toNat
  let v := if 48 ≤ n ∧ n ≤ 57 then some (n - 48)
    else if 65 ≤ n ∧ n ≤ 70 then some (n - 55)
    else if 97 ≤ n ∧ n ≤ 102 then some (n - 87)
    else none
  match v with
  | some d => if d < base then some d else none
  | none => none

/-- Digits of a base, most significant first, continuing a value. -/
def readDigits (base : Nat) : List Char → Nat → Option Nat
  | [], acc => some acc
  | c :: rest, acc =>
    match digitValue base c with
    | some d => readDigits base rest (acc * base + d)
    | none => none

/-- A number: "decimal, `0x` hexadecimal or `0b` binary" (R75). -/
def readNumber : List Char → Option Nat
  | '0' :: 'x' :: d :: ds => readDigits 16 (d :: ds) 0
  | '0' :: 'b' :: d :: ds => readDigits 2 (d :: ds) 0
  | d :: ds => readDigits 10 (d :: ds) 0
  | [] => none

/-- What one line of text says. -/
inductive AsmLine where
  /-- Nothing but blanks and a comment. -/
  | blank
  | statement (a : Asm)
  /-- A syntax error: "the assembler refuses it" (R75). -/
  | refused
  deriving DecidableEq, Repr

/-- Commas read as blanks, for the macros' argument lists (R132, R139, R140). -/
def commasToBlanks (line : List Char) : List Char := line.map fun c => if c = ',' then ' ' else c

/-- The numbers of a FRAME. -/
def readNumbers : List (List Char) → Option (List Nat)
  | [] => some []
  | w :: ws =>
    match readNumber w, readNumbers ws with
    | some n, some ns => some (n :: ns)
    | _, _ => none

/-- `true` or `false`. -/
def readBool (w : List Char) : Option Bool :=
  if w = ['t', 'r', 'u', 'e'] then some true
  else if w = ['f', 'a', 'l', 's', 'e'] then some false
  else none

/-- A number with or without a minus sign: `SETBRIGHT -1, false` is a call the session refuses (R140). -/
def readInteger : List Char → Option Int
  | '-' :: ds => (readNumber ds).map fun n => -(n : Int)
  | ds => (readNumber ds).map fun n => (n : Int)

/-- The characters up to the closing quotation mark (character code 34), and nothing but blanks after it. -/
def takeQuoted : List Char → Option (List Char)
  | [] => none
  | c :: rest =>
    if c.toNat = 34 then (if splitBlanks rest = [] then some [] else none)
    else (takeQuoted rest).map fun cs => c :: cs

/-- The characters of a SHOW: `SHOW c0 c1 c2 c3` (R137), or a quoted text as 95_test_vectors.md writes it. -/
def readShow : List Char → Option (List Char)
  | [] => some []
  | c :: rest =>
    if c = ' ' ∨ c = '\t' then readShow rest
    else if c.toNat = 34 then takeQuoted rest
    else (splitBlanks (c :: rest)).mapM fun w =>
      match w with
      | [d] => some d
      | _ => none

/-- The text after the word SHOW. The spec gives no grammar for what separates SHOW from its arguments: that it is a blank
or a tab, as between any two words, is the model's choice (log 23, DESIGN CHOICE). -/
def afterShow : List Char → Option (List Char)
  | 'S' :: 'H' :: 'O' :: 'W' :: sep :: rest => if sep = ' ' ∨ sep = '\t' then some rest else none
  | _ => none

/-- Read a host macro (R132-R140), `none` when the line is none. What separates a macro's name from its arguments, and the
arguments from each other, is the model's choice (log 23, DESIGN CHOICE). -/
def readMacro (line : List Char) : Option Asm :=
  match splitBlanks (commasToBlanks line) with
  | ['F', 'R', 'A', 'M', 'E'] :: ws => (readNumbers ws).map Asm.frame
  | [['S', 'E', 'T', 'D', 'P'], v, a] =>
    match readBool v, readBool a with
    | some v, some a => some (.setDp v a)
    | _, _ => none
  | [['S', 'E', 'T', 'B', 'R', 'I', 'G', 'H', 'T'], v, a] =>
    match readInteger v, readBool a with
    | some v, some a => some (.setBright v a)
    | _, _ => none
  | _ =>
    match afterShow (line.dropWhile fun c => c = ' ' ∨ c = '\t') with
    | some rest => (readShow rest).map Asm.showPseudo
    | none => none

/-- A statement, refused when it is not well formed. -/
def checked (a : Option Asm) : AsmLine :=
  match a with
  | some a => if a.wf then .statement a else .refused
  | none => .refused

/-- Read one line: the core syntax of R75 first, then the host macros. -/
def readLine (text : List Char) : AsmLine :=
  let line := dropComment text
  match splitBlanks line with
  | [] => .blank
  | [['S', 'T', 'A', 'R', 'T']] => .statement .start
  | [['S', 'T', 'O', 'P']] => .statement .stop
  | [['W', 'R', 'I', 'T', 'E'], digits] => checked ((readNumber digits).map Asm.write)
  | [['.', 'w', 'o', 'r', 'd'], digits] => checked ((readNumber digits).map Asm.word)
  | _ => checked (readMacro line)

end Sys2Proof.Machine
end

