-- ==== Sys2Proof/Machine/Lines.lean ====
section
/-! DEFINITION. What an observer of the bus sees: the levels of CLK and DIO (10_state.md R22) and the events between two
consecutive edges, start and stop conditions (00_scope.md R12) and CLK rising edges (42_byte-write.md R113). No rule of
the framer depends on it. -/

namespace Sys2Proof.Machine

/-- The levels of the two lines, true for high: the spec's `(CLK_line, DIO_line)`. -/
structure Lines where
  clk : Bool
  dio : Bool
  deriving DecidableEq, Repr

/-- The lines as they stand from the last edge to the next one. -/
def State.lines (s : State) : Lines := { clk := s.clkLine, dio := s.dioLine }

/-- What one change of the lines is on the bus. -/
inductive BusEvent where
  /-- DIO falls while CLK is high (R12). -/
  | startCondition
  /-- DIO rises while CLK is high (R12: "data released while clock is high"). -/
  | stopCondition
  /-- CLK rises, with DIO at the given level after it (log 25). -/
  | clockRise (dio : Bool)
  deriving DecidableEq, Repr

/-- The event between two consecutive line states, if any. -/
def busEvent (before after : Lines) : Option BusEvent :=
  match before.clk, after.clk with
  | true, true =>
    match before.dio, after.dio with
    | true, false => some .startCondition
    | false, true => some .stopCondition
    | _, _ => none
  | false, true => some (.clockRise after.dio)
  | _, _ => none

/-- The events a byte puts on the bus when no other agent pulls a line: its bits, least significant first, at eight CLK
rises, then the ack clock with DIO still at bit 7 (R52, R110, R114). -/
def byteEvents (b : Byte) : List BusEvent :=
  [.clockRise (b.getLsbD 0), .clockRise (b.getLsbD 1), .clockRise (b.getLsbD 2), .clockRise (b.getLsbD 3),
   .clockRise (b.getLsbD 4), .clockRise (b.getLsbD 5), .clockRise (b.getLsbD 6), .clockRise (b.getLsbD 7),
   .clockRise (b.getLsbD 7)]

/-- The events of a FRAME from an idle bus: a start condition, its bytes, STOP's CLK rise with DIO low, a stop condition
(R101, R103, R132). -/
def frameEvents (bytes : List Byte) : List BusEvent :=
  .startCondition :: ((bytes.map byteEvents).flatten ++ [.clockRise false, .stopCondition])

end Sys2Proof.Machine
end

