-- ==== Sys2Proof/Machine/Timing.lean ====
section
/-! DEFINITION. The durations the spec tabulates (40_command-cycle.md R96, 70_reset_and_hazards.md R201, 45_host-sequences.md
R150), in clock cycles. The step does not use them; claims compare the step with them. -/

namespace Sys2Proof.Machine

/-- Cycles from the accepting edge to the edge at which `phase` returns to IDLE (R96). -/
def commandEdges (U : Nat) : Instr → Nat
  | .start => U
  | .stop => 3 * U
  | .write _ => 19 * U + 8
  | .reserved _ => 0

/-- Timing units per command (R201). -/
def commandUnits : Instr → Nat
  | .start => 1
  | .stop => 3
  | .write _ => 19
  | .reserved _ => 0

/-- Cycles of a FRAME of `n` bytes issued at the earliest edges (R201). -/
def frameEdges (U n : Nat) : Nat := (4 + 19 * n) * U + 9 * n + 1

/-- Cycles of a whole `show` issued at the earliest edges (R150). -/
def showEdges (U : Nat) : Nat := 145 * U + 68

/-- The real time of one Wait in milliseconds, `U * T_CLK` (R92, R200). -/
def unitMilliseconds (U : Nat) (tClk : Rat) : Rat := (U : Rat) * tClk

end Sys2Proof.Machine
end

