-- ==== Sys2Proof/Safety.lean ====
section
/-! DEFINITION. What claims are stated in: flags clear, the invariant of the reachable states, the invariant of a host that
makes only Display Session calls, runs without a reset or without foreign pulls, and the waveforms the spec writes out
edge by edge (41_framing.md R100, R102; 42_byte-write.md R110). -/

namespace Sys2Proof.Machine

/-- No error flag is set: the premise that rules out broken framing (60_exceptions.md R172). -/
def State.flagsClear (s : State) : Bool := !s.framer.illegal && !s.framer.seqerr

/-- No reset reaches the framer from the environment at the next `k` edges. -/
abbrev State.noResetFor (s : State) (k : Nat) : Prop := ∀ j < k, (s.inputAt j).rst = false

/-- At the next `k` edges no other agent pulls a line and no reset comes from the environment. -/
abbrev State.busFreeFor (s : State) (k : Nat) : Prop :=
  ∀ j < k, s.inputAt j = { rst := false, extClkPull := false, chipDioPull := false }

/-- The next edge accepts the command `i`. -/
abbrev State.acceptsCommand (s : State) (i : Instr) : Prop := s.accepts = true ∧ decode s.cmd = i

/-- The framer but for its acknowledgment sample registers (R31). -/
def Framer.withoutAck (f : Framer) : Framer := { f with ackValid := false, ackLevel := false }

/-- The registers that hold in each phase (derived from R93, R100, R102, R110): the enables, the wait counter, the bit
count, and the bits still in `sr`. -/
def Framer.shapeOk (f : Framer) : Bool :=
  match f.phase with
  | .idle => f.wcnt == 0 && f.bitcnt == 0#4 && f.sr == 0x00#8
  | .startW => f.dioOe && f.bitcnt == 0#4 && f.sr == 0x00#8
  | .stopW0 => f.dioOe && f.bitcnt == 0#4 && f.sr == 0x00#8
  | .stopW1 => !f.clkOe && f.dioOe && f.bitcnt == 0#4 && f.sr == 0x00#8
  | .stopW2 => !f.clkOe && !f.dioOe && f.bitcnt == 0#4 && f.sr == 0x00#8
  | .bitLowW => f.clkOe && decide (f.bitcnt.toNat < 8) && decide (f.sr.toNat < 2 ^ (8 - f.bitcnt.toNat))
  | .bitData =>
    f.clkOe && f.wcnt == 0 && decide (f.bitcnt.toNat < 8) && decide (f.sr.toNat < 2 ^ (7 - f.bitcnt.toNat))
  | .bitHighW =>
    !f.clkOe && decide (1 ≤ f.bitcnt.toNat) && decide (f.bitcnt.toNat ≤ 8) &&
      decide (f.sr.toNat < 2 ^ (8 - f.bitcnt.toNat))
  | .ackLowW => f.clkOe && f.bitcnt == 8#4 && f.sr == 0x00#8
  | .ackHighW => !f.clkOe && f.bitcnt == 8#4 && f.sr == 0x00#8
  | .ackEndW => f.clkOe && f.bitcnt == 8#4 && f.sr == 0x00#8

/-- The invariant of the reachable states: a legal build, a Wait that never exceeds a unit, the registers each phase
allows, no sample in a framer without the option, and the host's tables in order. -/
structure State.Inv (s : State) : Prop where
  /-- `U >= 1` (R8). -/
  unit : 1 ≤ s.build.U
  /-- `wcnt <= U - 1` (R28). -/
  wait : s.framer.wcnt ≤ s.build.U - 1
  /-- The phase's registers. -/
  shape : s.framer.shapeOk = true
  /-- Both sample registers "are constant 0" when ACK_SAMPLE = ABSENT (R31). -/
  ack : s.build.ackSample = .absent → s.framer.ackValid = false ∧ s.framer.ackLevel = false
  /-- "Keys unique" (R133), in the model's canonical order. -/
  table : s.host.session.charMap.sorted = true

/-- A script of Display Session calls only. -/
def callsOnly (script : List HostMove) : Bool :=
  script.all fun m =>
    match m with
    | .call _ => true
    | .drive _ _ => false
    | .issue _ => false

/-- The lines are released, or a STOP in progress will leave them so: the next START meets its precondition. -/
def Framer.closed (f : Framer) : Bool :=
  match f.phase with
  | .idle => !f.clkOe && !f.dioOe
  | .stopW0 => true
  | .stopW1 => true
  | .stopW2 => true
  | .startW => false
  | .bitLowW => false
  | .bitData => false
  | .bitHighW => false
  | .ackLowW => false
  | .ackHighW => false
  | .ackEndW => false

/-- Every START of the words follows a STOP (or a closed beginning), no word is reserved, and the end is closed. -/
def framed : Bool → List CommandWord → Bool
  | closed, [] => closed
  | closed, w :: ws =>
    match decode w with
    | .start => closed && framed false ws
    | .stop => framed true ws
    | .write _ => framed false ws
    | .reserved _ => false

/-- The host makes only session calls, and what is left of the call in progress is properly framed. -/
structure State.SessionTraffic (s : State) : Prop where
  inv : s.Inv
  calls : callsOnly s.host.script = true
  outbox : framed s.framer.closed s.host.outbox = true

/-- The events on the bus at the next `k` edges, first first. -/
def busTrace : Nat → State → List BusEvent
  | 0, _ => []
  | k + 1, s =>
    match step s with
    | .next t => (busEvent s.lines t.lines).toList ++ busTrace k t
    | .fault _ => []
    | .refused _ => []

/-- `(clk_oe, dio_oe, phase)` after edge `e + k` of a START accepted at `e` with `clk_oe` as given (R100). -/
def startWave (U : Nat) (clkOe : Bool) (k : Nat) : Bool × Bool × Phase :=
  (clkOe, true, if k < U then .startW else .idle)

/-- `(clk_oe, dio_oe, phase)` after edge `e + k` of a STOP accepted at `e` with `clk_oe` as given (R102). -/
def stopWave (U : Nat) (clkOe : Bool) (k : Nat) : Bool × Bool × Phase :=
  if k < U then (clkOe, true, .stopW0)
  else if k < 2 * U then (false, true, .stopW1)
  else if k < 3 * U then (false, false, .stopW2)
  else (false, false, .idle)

/-- `(clk_oe, dio_oe, phase)` after edge `e + k` of a WRITE of `b` accepted at `e` with `dio_oe` as given: bit `i` takes
the edges from `t_i = e + i * (2U + 1)`, the ack cycle those from `e + 16U + 8` (R110). -/
def writeWave (U : Nat) (b : Byte) (dioOe : Bool) (k : Nat) : Bool × Bool × Phase :=
  if k < 16 * U + 8 then
    let i := k / (2 * U + 1)
    let r := k % (2 * U + 1)
    let before := if i = 0 then dioOe else !b.getLsbD (i - 1)
    if r < U then (true, before, .bitLowW)
    else if r = U then (true, !b.getLsbD i, .bitData)
    else (false, !b.getLsbD i, .bitHighW)
  else
    let r := k - (16 * U + 8)
    let last := !b.getLsbD 7
    if r < U then (true, last, .ackLowW)
    else if r < 2 * U then (false, last, .ackHighW)
    else if r < 3 * U then (true, last, .ackEndW)
    else (true, last, .idle)

/-- `(sr, bitcnt)` after edge `e + k` of a WRITE of `b` accepted at `e`: bit `i` is shifted out at `t_i + U` and counted at
`t_i + U + 1`, so `sr` holds `b >> i` when bit `i` is placed; the count stays 8 through the ack cycle and ends at 0 (R110). -/
def writeShift (U : Nat) (b : Byte) (k : Nat) : Byte × BitVec 4 :=
  if k < 16 * U + 8 then
    let i := k / (2 * U + 1)
    let r := k % (2 * U + 1)
    (if r < U then b >>> i else b >>> (i + 1), if r ≤ U then BitVec.ofNat 4 i else BitVec.ofNat 4 (i + 1))
  else (0x00#8, if k < 19 * U + 8 then 8#4 else 0#4)

/-- A phase in which a Wait runs: every phase but IDLE and BIT_DATA (R27, R92). -/
abbrev Phase.waits (p : Phase) : Prop := p ≠ .idle ∧ p ≠ .bitData

/-- The table of R143, written out again from the rule, column by column: what the seed is compared with. -/
def entriesOfR143 : List (Char × Byte) :=
  [('0', 0x3F#8), ('1', 0x06#8), ('2', 0x5B#8), ('3', 0x4F#8), ('4', 0x66#8)] ++
  [('5', 0x6D#8), ('6', 0x7D#8), ('7', 0x07#8), ('8', 0x7F#8), ('9', 0x6F#8)] ++
  [('A', 0x77#8), ('B', 0x7F#8), ('C', 0x39#8), ('D', 0x3F#8), ('E', 0x79#8)] ++
  [('F', 0x71#8), (' ', 0x00#8), ('-', 0x40#8), ('_', 0x08#8)]

/-- The part of the framer a waveform speaks of. -/
def Framer.wave (f : Framer) : Bool × Bool × Phase := (f.clkOe, f.dioOe, f.phase)

end Sys2Proof.Machine
end

