-- ==== Sys2Proof/Certificates/Slice0/Obligations.lean ====
section
/-! DEFINITION. The statements for the provers, from the spec's numbered rules. Every statement holds for all build
parameters, all inputs and all host scripts that its hypotheses leave open. -/

open Sys2Proof Sys2Proof.Machine

/-! ### The codec -/

/-- The words of 95_test_vectors.md V-E1 to V-E6 decode to the commands they stand for. -/
def Obligations.DecodesTheWordsOfTheSpec : Prop :=
  decode 0x000#10 = .start ∧ decode 0x100#10 = .stop ∧ decode 0x200#10 = .write 0x00#8 ∧
  decode 0x2FF#10 = .write 0xFF#8 ∧ decode 0x240#10 = .write 0x40#8 ∧ decode 0x0FF#10 = .start ∧
  decode 0x1A5#10 = .stop ∧ decode 0x3A5#10 = .reserved 0xA5#8 ∧ decode 0x300#10 = .reserved 0x00#8 ∧
  decode 0x3FF#10 = .reserved 0xFF#8

/-- R76: the encoder's words, the decoder's fields, `decode(encode(c)) = c`, no encoding for RESERVED, and START or STOP
words with non-zero data are not images of `encode`. -/
def Obligations.EncodeAndDecodeAgree : Prop :=
  encode .start = some 0x000#10 ∧ encode .stop = some 0x100#10 ∧
  (∀ b : Byte, encode (.write b) = some (0x200#10 + b.setWidth 10)) ∧
  (∀ d : Byte, encode (.reserved d) = none) ∧
  (∀ w : CommandWord,
    (opField w = 0#2 → decode w = .start) ∧ (opField w = 1#2 → decode w = .stop) ∧
    (opField w = 2#2 → decode w = .write (dataField w)) ∧
    (opField w = 3#2 → decode w = .reserved (dataField w))) ∧
  (∀ i w, encode i = some w → decode w = i) ∧
  (∀ w : CommandWord, opField w = 0#2 ∨ opField w = 1#2 → dataField w ≠ 0#8 → ∀ i, encode i ≠ some w)

/-- Whole command streams round trip: every stream of well-formed commands has one list of words, that list decodes to the
stream, and no other stream has it (R71, R76). -/
def Obligations.CommandStreamsRoundTrip : Prop :=
  ∀ p : List Instr, (∀ i ∈ p, i.wf = true) →
    ∃ ws : List CommandWord, p.mapM encode = some ws ∧ ws.map decode = p ∧
      ∀ q : List Instr, q.mapM encode = some ws → q = p

/-- R74: the data bits of START and STOP words change nothing. -/
def Obligations.DataBitsOfStartAndStopIgnored : Prop :=
  ∀ (s : State) (d : Byte),
    step (s.offering (commandWord 0#2 d)) = step (s.offering 0x000#10) ∧
    step (s.offering (commandWord 1#2 d)) = step (s.offering 0x100#10)

/-- R75: the assembler takes `WRITE` immediates 0 to 255 and raw words 0 to 1023, as the words the rule gives, and refuses
the others. -/
def Obligations.AssemblerTakesExactlyTheImmediatesThatFit : Prop :=
  assemble .start = some [.issue 0x000#10] ∧ assemble .stop = some [.issue 0x100#10] ∧
  (∀ n : Nat, n < 256 → assemble (.write n) = some [.issue (0x200#10 + BitVec.ofNat 10 n)]) ∧
  (∀ n : Nat, 256 ≤ n → assemble (.write n) = none) ∧
  (∀ n : Nat, n < 1024 → assemble (.word n) = some [.issue (BitVec.ofNat 10 n)]) ∧
  (∀ n : Nat, 1024 ≤ n → assemble (.word n) = none)

/-! ### Acceptance and the step -/

/-- R90: when a command is accepted, and that the step then runs the decoded command, on the state whose inputs and host
have moved on by one edge. The last clause is the interface's: a table word placed by `withFetchWord` is the command the
very next step runs, and the host is afterwards what it was (log 15). -/
def Obligations.StepRunsTheAcceptedCommand : Prop :=
  (∀ s : State, s.accepts = true ↔ (s.rst = false ∧ s.cmdValid = true ∧ s.cmdReady = true)) ∧
  (∀ s : State, s.accepts = true → step s = exec (decode s.cmd) s.advance) ∧
  (∀ (s : State) (nbits w : Nat) (i : Instr), decodeTableWord nbits w = some i →
    step (s.withFetchWord nbits w) = exec i (s.withFetchWord nbits w).advance ∧
    (s.withFetchWord nbits w).advance.host = s.host)

/-- R93: "The step never faults and never refuses." -/
def Obligations.StepNeverStops : Prop := ∀ s : State, ∃ t, step s = .next t

/-- R95: while a command is in progress the framer's next registers do not depend on what the host does, and a reset edge
accepts nothing. -/
def Obligations.BusyFramerIgnoresTheCommandPort : Prop :=
  (∀ s t : State, s.framer = t.framer → s.build = t.build → s.input = t.input → s.framer.phase ≠ .idle →
    s.accepts = false ∧
    ∃ s' t', step s = .next s' ∧ step t = .next t' ∧ s'.framer = t'.framer) ∧
  (∀ s : State, s.rst = true → s.accepts = false)

/-- The host's duty of R149: a word offered is held until the edge that accepts it, a word of a call in progress and a word
of the script alike. The outbox and the script are the model's (log 8). -/
def Obligations.HostHoldsAnOfferUntilAccepted : Prop :=
  (∀ (s t : State) (w : CommandWord) (ws : List CommandWord), s.host.outbox = w :: ws → step s = .next t →
    s.cmdValid = true ∧ s.cmd = w ∧
    t.host = if s.accepts then { s.host with outbox := ws } else s.host) ∧
  (∀ (s t : State) (w : CommandWord) (rest : List HostMove), s.host.outbox = [] →
    s.host.script = .issue w :: rest → step s = .next t →
    s.cmdValid = true ∧ s.cmd = w ∧
    t.host = if s.accepts then { s.host with script := rest } else s.host)

/-- An idle edge that accepts nothing leaves every register of the framer as it was, whatever the host does (R93: a register
the edge does not name keeps its value; R178: an idle framer holds its lines). -/
def Obligations.IdleEdgeHoldsEveryRegister : Prop :=
  ∀ s : State, s.framer.phase = .idle → s.rst = false → s.accepts = false →
    ∃ t, step s = .next t ∧ t.framer = s.framer

/-- No step writes a build-time parameter (R33, R34) or a host-level one (R131, I12). The fields `build` and `params` that
carry them are the model's (log 2, log 13). -/
def Obligations.ParametersNeverChange : Prop :=
  ∀ s t : State, step s = .next t → t.build = s.build ∧ t.host.params = s.host.params

/-! ### The commands at their accepting edge -/

/-- START, accepting edge (R93, R100), with everything it leaves unchanged. -/
def Obligations.StartDrivesDioAndWaits : Prop :=
  ∀ s : State, exec .start s = .next { s with framer := { s.framer with
    dioOe := true, wcnt := s.build.U - 1, phase := .startW,
    seqerr := s.framer.seqerr || s.framer.clkOe || s.framer.dioOe } }

/-- STOP, accepting edge (R93, R102), with everything it leaves unchanged. -/
def Obligations.StopDrivesDioAndWaits : Prop :=
  ∀ s : State, exec .stop s = .next { s with framer := { s.framer with
    dioOe := true, wcnt := s.build.U - 1, phase := .stopW0 } }

/-- WRITE, accepting edge (R93, R110), with everything it leaves unchanged. -/
def Obligations.WriteLoadsTheByteAndDrivesClk : Prop :=
  ∀ (b : Byte) (s : State), exec (.write b) s = .next { s with framer := { s.framer with
    sr := b, bitcnt := 0#4, clkOe := true, wcnt := s.build.U - 1, phase := .bitLowW } }

/-- R94: a reserved word raises `illegal` and changes nothing else, and the next command can be accepted at the next edge;
with the rule's example. -/
def Obligations.ReservedOnlyRaisesIllegal : Prop :=
  (∀ (d : Byte) (s : State), exec (.reserved d) s = .next { s with framer := { s.framer with illegal := true } }) ∧
  (∀ (d : Byte) (s : State), s.acceptsCommand (.reserved d) →
    ∃ t, step s = .next t ∧ t.framer = { s.framer with illegal := true } ∧ t.cmdReady = true) ∧
  (∃ t, step (State.reset.offering 0x3A5#10) = .next t ∧ t.status = 0b00010#5 ∧
    t.framer.clkOe = false ∧ t.framer.dioOe = false)

/-- The frame of START and STOP: what their accepting edge leaves unchanged. -/
def Obligations.FrameOfStartAndStop : Prop :=
  ∀ (i : Instr) (s t : State), i = .start ∨ i = .stop → exec i s = .next t →
    t.framer.clkOe = s.framer.clkOe ∧ t.framer.sr = s.framer.sr ∧ t.framer.bitcnt = s.framer.bitcnt ∧
    t.framer.illegal = s.framer.illegal ∧ t.framer.ackValid = s.framer.ackValid ∧
    t.framer.ackLevel = s.framer.ackLevel ∧ (i = .stop → t.framer.seqerr = s.framer.seqerr) ∧
    t.build = s.build ∧ t.host = s.host ∧ t.env = s.env ∧ t.edge = s.edge

/-- The frame of WRITE and of a reserved word: what their accepting edge leaves unchanged. -/
def Obligations.FrameOfWriteAndReserved : Prop :=
  ∀ (i : Instr) (b : Byte) (s t : State), i = .write b ∨ i = .reserved b → exec i s = .next t →
    t.framer.dioOe = s.framer.dioOe ∧ t.framer.seqerr = s.framer.seqerr ∧
    t.framer.ackValid = s.framer.ackValid ∧ t.framer.ackLevel = s.framer.ackLevel ∧
    (i = .write b → t.framer.illegal = s.framer.illegal) ∧
    (i = .reserved b → t.framer.clkOe = s.framer.clkOe ∧ t.framer.sr = s.framer.sr ∧
      t.framer.bitcnt = s.framer.bitcnt ∧ t.framer.wcnt = s.framer.wcnt ∧ t.framer.phase = s.framer.phase) ∧
    t.build = s.build ∧ t.host = s.host ∧ t.env = s.env ∧ t.edge = s.edge

/-! ### Whole commands, edge by edge -/

/-- R92: in a waiting phase every edge only decrements `wcnt` until it is 0. -/
def Obligations.WaitOnlyCountsDown : Prop :=
  ∀ s : State, s.framer.phase ≠ .idle → s.framer.phase ≠ .bitData → s.noResetFor s.framer.wcnt →
    ∀ k ≤ s.framer.wcnt, ∃ t, run k s = .next t ∧ t.framer = { s.framer with wcnt := s.framer.wcnt - k }

/-- R96: each command takes exactly its duration; the framer is ready again after edge `e + duration` and not before. -/
def Obligations.CommandsTakeTheirDurations : Prop :=
  ∀ (s : State) (i : Instr), s.acceptsCommand i → 1 ≤ s.build.U →
    s.noResetFor (commandEdges s.build.U i + 1) →
    ∀ k ≤ commandEdges s.build.U i, ∃ t, run (k + 1) s = .next t ∧
      t.cmdReady = decide (k = commandEdges s.build.U i)

/-- A START runs as R100 writes it, at every edge, and leaves the other registers as they were, and the session, since a
call waits for `cmd_ready` (the model's convention, log 9). -/
def Obligations.StartRunsItsWaveform : Prop :=
  ∀ s : State, s.acceptsCommand .start → 1 ≤ s.build.U → s.noResetFor (s.build.U + 1) →
    ∀ k ≤ s.build.U, ∃ t, run (k + 1) s = .next t ∧
      t.framer.wave = startWave s.build.U s.framer.clkOe k ∧
      t.framer.sr = s.framer.sr ∧ t.framer.bitcnt = s.framer.bitcnt ∧ t.framer.illegal = s.framer.illegal ∧
      t.framer.seqerr = (s.framer.seqerr || s.framer.clkOe || s.framer.dioOe) ∧
      t.framer.ackValid = s.framer.ackValid ∧ t.framer.ackLevel = s.framer.ackLevel ∧
      t.build = s.build ∧ t.host.session = s.host.session

/-- A STOP runs as R102 writes it, at every edge, and leaves the other registers as they were, and the session, since a
call waits for `cmd_ready` (the model's convention, log 9). -/
def Obligations.StopRunsItsWaveform : Prop :=
  ∀ s : State, s.acceptsCommand .stop → 1 ≤ s.build.U → s.noResetFor (3 * s.build.U + 1) →
    ∀ k ≤ 3 * s.build.U, ∃ t, run (k + 1) s = .next t ∧
      t.framer.wave = stopWave s.build.U s.framer.clkOe k ∧
      t.framer.sr = s.framer.sr ∧ t.framer.bitcnt = s.framer.bitcnt ∧ t.framer.illegal = s.framer.illegal ∧
      t.framer.seqerr = s.framer.seqerr ∧
      t.framer.ackValid = s.framer.ackValid ∧ t.framer.ackLevel = s.framer.ackLevel ∧
      t.build = s.build ∧ t.host.session = s.host.session

/-- A WRITE runs as R110's table of edges writes it: the step function of R93 and the closed form of R110 agree at every
edge, for every byte and every U, in the enables, the phase, `sr` and `bitcnt`. The flags do not change; nor does the
session, since a call waits for `cmd_ready` (the model's convention, log 9). -/
def Obligations.WriteRunsItsWaveform : Prop :=
  ∀ (s : State) (b : Byte), s.acceptsCommand (.write b) → 1 ≤ s.build.U → s.noResetFor (19 * s.build.U + 9) →
    ∀ k ≤ 19 * s.build.U + 8, ∃ t, run (k + 1) s = .next t ∧
      t.framer.wave = writeWave s.build.U b s.framer.dioOe k ∧
      (t.framer.sr, t.framer.bitcnt) = writeShift s.build.U b k ∧
      t.framer.illegal = s.framer.illegal ∧ t.framer.seqerr = s.framer.seqerr ∧
      t.build = s.build ∧ t.host.session = s.host.session

/-- The end of a WRITE (R110, R112) with its acknowledgment sample (R111): the level of DIO at edge `a + 2U`, and whether
the framer had released it. -/
def Obligations.WriteEndStateAndAckSample : Prop :=
  ∀ (s : State) (b : Byte), s.acceptsCommand (.write b) → 1 ≤ s.build.U → s.noResetFor (19 * s.build.U + 9) →
    ∃ t, run (19 * s.build.U + 9) s = .next t ∧
      t.framer = { s.framer with
        clkOe := true, dioOe := !b.getLsbD 7, sr := 0x00#8, phase := .idle, wcnt := 0, bitcnt := 0#4,
        ackValid := if s.build.ackSample = .present then b.getLsbD 7 else s.framer.ackValid,
        ackLevel := if s.build.ackSample = .present
          then b.getLsbD 7 && !(s.inputAt (18 * s.build.U + 8)).chipDioPull else s.framer.ackLevel }

/-- R31, R111: two runs that differ only in the pulls of other agents and in the sample registers agree, after any number
of edges, on everything but the sample registers, the host (the model's, log 8) among it; without the option they agree on every
register. -/
def Obligations.AckSampleIsObserveOnly : Prop :=
  ∀ (k : Nat) (s t : State), s.build = t.build → s.host = t.host →
    s.framer.withoutAck = t.framer.withoutAck → (∀ j < k, (s.inputAt j).rst = (t.inputAt j).rst) →
    ∃ s' t', run k s = .next s' ∧ run k t = .next t' ∧ s'.host = t'.host ∧
      s'.framer.withoutAck = t'.framer.withoutAck ∧
      (s.build.ackSample = .absent → s.framer = t.framer → s'.framer = t'.framer)

/-- R53: in register terms, `dio_oe <- ~sr[0]`, at the edge that ends BIT_LOW_W, with the shift of R26. -/
def Obligations.BitIsPlacedInverted : Prop :=
  ∀ s : State, s.framer.phase = .bitLowW → s.framer.wcnt = 0 → s.rst = false →
    ∃ t, step s = .next t ∧
      t.framer = { s.framer with dioOe := !s.framer.sr.getLsbD 0, sr := s.framer.sr >>> 1, phase := .bitData }

/-- R113: during a WRITE, DIO changes only while CLK is driven low, in every state that meets the invariant. -/
def Obligations.DioChangesOnlyWhileClkIsDriven : Prop :=
  ∀ s t : State, s.Inv →
    s.framer.phase ∈ [Phase.bitLowW, .bitData, .bitHighW, .ackLowW, .ackHighW, .ackEndW] →
    s.rst = false → step s = .next t → t.framer.dioOe ≠ s.framer.dioOe →
    s.framer.clkOe = true ∧ t.framer.clkOe = true

/-! ### The bus -/

/-- R21, R23: the output values of both pads are constant 0, so an enabled pad pulls its line low whatever another agent
does; another agent that pulls makes the line low too; and a line nobody pulls is high. -/
def Obligations.PadsNeverDriveHigh : Prop :=
  ∀ s : State, s.clkO = false ∧ s.dioO = false ∧
    (s.framer.clkOe = true → s.clkLine = s.clkO) ∧ (s.framer.dioOe = true → s.dioLine = s.dioO) ∧
    (s.input.extClkPull = true → s.clkLine = false) ∧ (s.input.chipDioPull = true → s.dioLine = false) ∧
    (s.framer.clkOe = false → s.input.extClkPull = false → s.clkLine = true) ∧
    (s.framer.dioOe = false → s.input.chipDioPull = false → s.dioLine = true)

/-- R22: the level of each line is the wired-AND of every agent's release; `dio_in` is the DIO line; `ext_clk_pull` affects
nothing but CLK's level. -/
def Obligations.LinesAreWiredAnd : Prop :=
  (∀ s : State,
    s.clkLine = (if s.framer.clkOe = true ∨ s.input.extClkPull = true then false else true) ∧
    s.dioLine = (if s.framer.dioOe = true ∨ s.input.chipDioPull = true then false else true) ∧
    s.dioIn = s.dioLine) ∧
  (∀ (s : State) (e : EdgeInput) (pull : Bool) (rest : List EdgeInput),
    step { s with env := e :: rest } = step { s with env := { e with extClkPull := pull } :: rest })

/-- R101: a START accepted with its precondition met makes a start condition at its edge, and CLK stays released for
the `U` edges that follow, so no action that touches CLK comes before `U + 1` edges after the fall of DIO. -/
def Obligations.StartMakesAStartCondition : Prop :=
  ∀ s : State, s.acceptsCommand .start → s.framer.clkOe = false → s.framer.dioOe = false → 1 ≤ s.build.U →
    s.busFreeFor (s.build.U + 2) →
    (∃ t, step s = .next t ∧ busEvent s.lines t.lines = some .startCondition ∧
      t.framer.seqerr = s.framer.seqerr) ∧
    ∀ k ≤ s.build.U, ∃ t, run (k + 1) s = .next t ∧ t.framer.clkOe = false ∧ t.lines.clk = true

/-- R103: every STOP ends with a stop condition at edge `e + 2U`, CLK being released at `e + U`; then both enables are 0 and
START's precondition holds. -/
def Obligations.StopMakesAStopCondition : Prop :=
  ∀ s : State, s.acceptsCommand .stop → 1 ≤ s.build.U → s.busFreeFor (3 * s.build.U + 2) →
    (∃ t, run (s.build.U + 1) s = .next t ∧ t.framer.clkOe = false) ∧
    (∃ t u, run (2 * s.build.U) s = .next t ∧ run (2 * s.build.U + 1) s = .next u ∧
      t.framer.dioOe = true ∧ u.framer.dioOe = false ∧ t.framer.clkOe = false ∧ u.framer.clkOe = false ∧
      busEvent t.lines u.lines = some .stopCondition) ∧
    (∃ t, run (3 * s.build.U + 1) s = .next t ∧ t.framer.phase = .idle ∧ t.framer.clkOe = false ∧
      t.framer.dioOe = false ∧ t.framer.startPreconditionFails = false)

/-- R104: a STOP from the idle bus is seen as an empty frame: a start condition at `e`, a stop condition at `e + 2U`, and
nothing else. -/
def Obligations.StopFromIdleIsAnEmptyFrame : Prop :=
  ∀ s : State, s.acceptsCommand .stop → s.framer.clkOe = false → s.framer.dioOe = false → 1 ≤ s.build.U →
    s.busFreeFor (3 * s.build.U + 2) →
    busTrace 1 s = [.startCondition] ∧
    busTrace (2 * s.build.U) s = [.startCondition] ∧
    (∃ t u, run s.build.U s = .next t ∧ run (s.build.U + 1) s = .next u ∧ u.lines = t.lines) ∧
    busTrace (2 * s.build.U + 1) s = [.startCondition, .stopCondition] ∧
    busTrace (3 * s.build.U + 1) s = [.startCondition, .stopCondition]

/-- R52, R113, R114: with no other agent pulling, a WRITE puts its bits on the bus least significant first at eight CLK
rising edges, then the ack clock with DIO still at bit 7, and nothing else. -/
def Obligations.WriteShowsItsBitsOnTheBus : Prop :=
  ∀ (s : State) (b : Byte), s.acceptsCommand (.write b) → 1 ≤ s.build.U → s.busFreeFor (19 * s.build.U + 10) →
    busTrace (19 * s.build.U + 9) s = byteEvents b

/-- R132, R201: a FRAME of one or more bytes from an idle bus takes `(4 + 19n)U + 9n + 1` cycles at the earliest edges, shows
exactly its bytes between one start and one stop condition, raises no flag, and leaves the lines released. That the host
offers each word at the earliest edge, from an outbox, is the model's (log 8), and so is that the session stands still
meanwhile, since a call waits for its turn (log 9). -/
def Obligations.FrameTakesItsTimeAndShowsItsBytes : Prop :=
  ∀ (s : State) (bytes : List Byte) (rest : List CommandWord), bytes ≠ [] → 1 ≤ s.build.U →
    s.framer.phase = .idle → s.framer.clkOe = false → s.framer.dioOe = false →
    s.host.outbox = frameWords bytes ++ rest → s.busFreeFor (frameEdges s.build.U bytes.length + 2) →
    busTrace (frameEdges s.build.U bytes.length + 1) s = frameEvents bytes ∧
    (∃ t, run (frameEdges s.build.U bytes.length) s = .next t ∧ t.framer.phase ≠ .idle) ∧
    (∃ t, run (frameEdges s.build.U bytes.length + 1) s = .next t ∧ t.framer.phase = .idle ∧
      t.framer.clkOe = false ∧ t.framer.dioOe = false ∧ t.host.outbox = rest ∧
      t.framer.illegal = s.framer.illegal ∧ t.framer.seqerr = s.framer.seqerr ∧
      t.host.session = s.host.session)

/-- R137, R150: a `show` of four characters of the table takes `145U + 68` cycles from the edge that accepts its first START
and the bus sees exactly its three frames. The model's choices in it: the call's own edge, one before that first START
(log 9), and that each word comes from an outbox at the earliest edge, as R150 counts it (log 8). The script's later calls
wait for `cmd_ready` (log 9); a `drive` move would be used up while the last STOP is busy, so that the rest of the script is
untouched is said of a script of calls. -/
def Obligations.ShowTakesItsTimeAndSendsThreeFrames : Prop :=
  ∀ (s : State) (c : Four Char) (b : Four Byte) (rest : List HostMove), 1 ≤ s.build.U →
    s.host.session.ready = true → s.framer.phase = .idle → s.framer.clkOe = false → s.framer.dioOe = false →
    s.host.outbox = [] → s.host.script = .call (.showChars [c.d0, c.d1, c.d2, c.d3]) :: rest →
    s.host.session.charMap.get? c.d0 = some b.d0 → s.host.session.charMap.get? c.d1 = some b.d1 →
    s.host.session.charMap.get? c.d2 = some b.d2 → s.host.session.charMap.get? c.d3 = some b.d3 →
    s.busFreeFor (showEdges s.build.U + 3) →
    busTrace (showEdges s.build.U + 2) s =
      frameEvents [s.host.params.cmdData] ++
      frameEvents [s.host.params.cmdAddr0, b.d0,
        if s.host.session.doublePoint then b.d1 ||| 0x80#8 else b.d1, b.d2, b.d3] ++
      frameEvents [s.host.params.cmdDispctrl ||| BitVec.ofNat 8 s.host.session.brightness.val] ∧
    (∃ t, run 1 s = .next t ∧ t.acceptsCommand .start) ∧
    (∃ t, run (showEdges s.build.U + 1) s = .next t ∧ t.framer.phase ≠ .idle) ∧
    (∃ t, run (showEdges s.build.U + 2) s = .next t ∧ t.framer.phase = .idle ∧
      t.framer.clkOe = false ∧ t.framer.dioOe = false ∧ t.host.outbox = [] ∧
      (callsOnly rest = true → t.host.script = rest) ∧
      t.host.session = { s.host.session with lastShown := c } ∧
      t.framer.illegal = s.framer.illegal ∧ t.framer.seqerr = s.framer.seqerr)

/-! ### Flags, outputs and reset -/

/-- R174: the exact next value of every flag: set by its cause, cleared only by reset; the sample registers are written by
each ack sample alone. -/
def Obligations.FlagsAreStickyAndHaveOneCause : Prop :=
  ∀ s t : State, step s = .next t →
    t.framer.illegal = (!s.rst && (s.framer.illegal || (s.accepts && decide (opField s.cmd = 3#2)))) ∧
    t.framer.seqerr = (!s.rst && (s.framer.seqerr ||
      (s.accepts && decide (opField s.cmd = 0#2) && (s.framer.clkOe || s.framer.dioOe)))) ∧
    t.framer.ackValid = (if s.rst = true then false
      else if s.framer.phase = .ackHighW ∧ s.framer.wcnt = 0 ∧ s.build.ackSample = .present
      then !s.framer.dioOe else s.framer.ackValid) ∧
    t.framer.ackLevel = (if s.rst = true then false
      else if s.framer.phase = .ackHighW ∧ s.framer.wcnt = 0 ∧ s.build.ackSample = .present
      then s.dioIn else s.framer.ackLevel)

/-- R173: an edge raises at most one flag, START only `seqerr` and a reserved word only `illegal`; a reset edge accepts
nothing and clears both. -/
def Obligations.AtMostOneFlagPerEdge : Prop :=
  ∀ s t : State, step s = .next t →
    (t.framer.illegal = s.framer.illegal ∨ t.framer.seqerr = s.framer.seqerr ∨ s.rst = true) ∧
    (s.acceptsCommand .start → t.framer.illegal = s.framer.illegal) ∧
    (∀ d, s.acceptsCommand (.reserved d) → t.framer.seqerr = s.framer.seqerr) ∧
    (s.rst = true → s.accepts = false ∧ t.framer.illegal = false ∧ t.framer.seqerr = false)

/-- R32: `cmd_ready` is 1 exactly in IDLE, depends on registered state alone, and `busy` is its negation. -/
def Obligations.ReadyExactlyInIdle : Prop :=
  (∀ s : State, s.cmdReady = true ↔ s.framer.phase = .idle) ∧
  (∀ s t : State, s.framer = t.framer → s.cmdReady = t.cmdReady) ∧
  (∀ s : State, s.framer.busy = !s.cmdReady)

/-- R33: the fields of `status`, hardwired 0 in bits 3 and 4 without the option, 0 at reset. -/
def Obligations.StatusShowsTheRegisters : Prop :=
  (∀ s : State,
    s.status.getLsbD 0 = decide (s.framer.phase ≠ .idle) ∧
    s.status.getLsbD 1 = s.framer.illegal ∧ s.status.getLsbD 2 = s.framer.seqerr ∧
    (s.build.ackSample = .present →
      s.status.getLsbD 3 = s.framer.ackValid ∧ s.status.getLsbD 4 = s.framer.ackLevel) ∧
    (s.build.ackSample = .absent → s.status.getLsbD 3 = false ∧ s.status.getLsbD 4 = false)) ∧
  State.reset.status = 0b00000#5

/-- R190: a reset edge puts every register at its reset value, whatever the phase, accepts nothing, and leaves the framer
ready with `status = 0`; the first command can be accepted at the first edge with `rst = 0`. -/
def Obligations.ResetTakesEveryRegister : Prop :=
  ∀ s : State, s.rst = true →
    ∃ t, step s = .next t ∧ s.accepts = false ∧
      t.framer = { clkOe := false, dioOe := false, sr := 0x00#8, phase := .idle, wcnt := 0, bitcnt := 0#4,
                   illegal := false, seqerr := false, ackValid := false, ackLevel := false } ∧
      t.cmdReady = true ∧ t.status = 0b00000#5 ∧ t.clkO = false ∧ t.dioO = false ∧
      t.accepts = (!t.rst && t.cmdValid)

/-- The reset state holds the values the spec gives: the registers of R190, `ready` and `lastShown` of R133 (D16), the seed
table of R143 (I12: the parameter's default), and a build R8 allows. The host's other fields at reset are the model's (log 6, 7, 8, 12, 26) and are not stated. -/
def Obligations.ResetStateHoldsTheSpecsValues : Prop :=
  State.reset.framer =
    { clkOe := false, dioOe := false, sr := 0x00#8, phase := .idle, wcnt := 0, bitcnt := 0#4,
      illegal := false, seqerr := false, ackValid := false, ackLevel := false } ∧
  State.reset.host.session.ready = false ∧ State.reset.host.session.lastShown = ⟨'-', '-', '-', '-'⟩ ∧
  State.reset.host.params.cmdDispctrl &&& 0x0F#8 = 0x00#8 ∧
  State.reset.host.params.seedTable = entriesOfR143 ∧ State.reset.build.wf

/-- R92 with R8: a step that enters a waiting phase loads `U - 1`; from there, with no reset, the framer keeps every register
but `wcnt` for the `U` cycles of the Wait and leaves the phase at the `U`-th edge, neither sooner nor later; and those
cycles last at least T_UNIT and at least one millisecond. -/
def Obligations.UnitLastsAtLeastOneMillisecond : Prop :=
  (∀ s t : State, step s = .next t → t.framer.phase ≠ s.framer.phase → t.framer.phase.waits →
    t.framer.wcnt = t.build.U - 1) ∧
  (∀ s : State, s.build.wf → s.framer.phase.waits → s.framer.wcnt = s.build.U - 1 → s.noResetFor s.build.U →
    (∀ k < s.build.U, ∃ t, run k s = .next t ∧
      t.framer = { s.framer with wcnt := s.build.U - 1 - k } ∧
      t.framer.clkOe = s.framer.clkOe ∧ t.framer.dioOe = s.framer.dioOe ∧ t.framer.phase = s.framer.phase) ∧
    (∃ t, run s.build.U s = .next t ∧ t.framer.phase ≠ s.framer.phase) ∧
    s.build.tUnit ≤ unitMilliseconds s.build.U s.build.tClk ∧
    1 ≤ unitMilliseconds s.build.U s.build.tClk)

/-! ### Invariants -/

/-- Every step keeps the invariant: the waits bounded by a unit, each phase's registers, `sr = 0` and `bitcnt = 0` whenever
idle, the sample registers 0 without the option, the character table in the model's order (log 12). -/
def Obligations.EveryStepKeepsTheInvariant : Prop :=
  ∀ s t : State, s.Inv → step s = .next t → t.Inv

/-- The invariant holds at reset (where the table is empty by the model's choice, log 12). -/
def Obligations.InvariantHoldsAtReset : Prop := State.reset.Inv

/-- A host that makes only Display Session calls never raises a flag: its traffic stays properly framed at every step, and no
flag rises. From the spec it takes START's precondition (R100), the frames of a call (R132, R137) and the duty of issuing
START only after a STOP or reset (R149). The host that does so is the model's: its script and outbox (log 8), the edge of a
call (log 9), and that after a reset at any edge it goes on with the words left of its call (log 20, which the spec leaves
open). -/
def Obligations.SessionTrafficRaisesNoFlag : Prop :=
  ∀ s t : State, s.SessionTraffic → step s = .next t →
    t.SessionTraffic ∧ (s.flagsClear = true → t.flagsClear = true)

/-- Any list of calls loaded at reset is such traffic (the script is the model's, log 8 and 15). -/
def Obligations.SessionTrafficHoldsAtReset : Prop :=
  ∀ calls : List Call,
    State.SessionTraffic { State.reset with host := { State.reset.host with script := calls.map .call } } ∧
    State.reset.flagsClear = true

/-! ### The Display Session -/

/-- R135: the length is checked first, then the characters in order, the first unknown one being named; a failed `show`
issues nothing and changes nothing. -/
def Obligations.ShowRefusesBadArguments : Prop :=
  ∀ (p : HostParams) (s : Session) (chars : List Char), s.ready = true →
    (chars.length ≠ 4 → performCall p s (.showChars chars) =
      { session := s, result := .invalidArgument .badLength, words := [], resetsFramer := false }) ∧
    (∀ (known : List Char) (c : Char) (others : List Char), chars.length = 4 → chars = known ++ c :: others →
      (∀ k ∈ known, s.charMap.get? k ≠ none) → s.charMap.get? c = none →
      performCall p s (.showChars chars) =
        { session := s, result := .invalidArgument (.unknownCharacter c), words := [], resetsFramer := false })

/-- R136, R137: a `show` of known characters records them, ORs 0x80 into byte 1 alone when the double point is set, and
issues the three frames in order. -/
def Obligations.ShowIssuesThreeFrames : Prop :=
  ∀ (p : HostParams) (s : Session) (c : Four Char) (b : Four Byte), s.ready = true →
    s.charMap.get? c.d0 = some b.d0 → s.charMap.get? c.d1 = some b.d1 →
    s.charMap.get? c.d2 = some b.d2 → s.charMap.get? c.d3 = some b.d3 →
    performCall p s (.showChars [c.d0, c.d1, c.d2, c.d3]) =
      { session := { s with lastShown := c }
        result := .done
        words := [0x000#10, 0x200#10 + p.cmdData.setWidth 10, 0x100#10,
          0x000#10, 0x200#10 + p.cmdAddr0.setWidth 10, 0x200#10 + b.d0.setWidth 10,
          0x200#10 + (if s.doublePoint then b.d1 ||| 0x80#8 else b.d1).setWidth 10,
          0x200#10 + b.d2.setWidth 10, 0x200#10 + b.d3.setWidth 10, 0x100#10,
          0x000#10, 0x200#10 + (p.cmdDispctrl ||| BitVec.ofNat 8 s.brightness.val).setWidth 10, 0x100#10]
        resetsFramer := false }

/-- R138: the display-control byte, and its low nibble. -/
def Obligations.DisplayControlLowNibbleIsBrightness : Prop :=
  ∀ (p : HostParams) (n : Fin 16), p.cmdDispctrl &&& 0x0F#8 = 0x00#8 →
    displayControlByte p n = p.cmdDispctrl ||| BitVec.ofNat 8 n.val ∧
    (displayControlByte p n &&& 0x0F#8).toNat = n.val

/-- R139: `setDoublePoint` stores the value, then shows `lastShown` or issues nothing. -/
def Obligations.SetDoublePointStoresThenFlushes : Prop :=
  ∀ (p : HostParams) (s : Session) (v : Bool), s.ready = true →
    performCall p s (.setDoublePoint v false) =
      { session := { s with doublePoint := v }, result := .done, words := [], resetsFramer := false } ∧
    performCall p s (.setDoublePoint v true) =
      performCall p { s with doublePoint := v }
        (.showChars [s.lastShown.d0, s.lastShown.d1, s.lastShown.d2, s.lastShown.d3])

/-- R140: `setBrightness` refuses what is outside 0..15, changing nothing; else it stores the value, then shows `lastShown`
or issues nothing. -/
def Obligations.SetBrightnessChecksStoresThenFlushes : Prop :=
  ∀ (p : HostParams) (s : Session), s.ready = true →
    (∀ (v : Int) (a : Bool), v < 0 ∨ 15 < v → performCall p s (.setBrightness v a) =
      { session := s, result := .invalidArgument .brightnessOutOfRange, words := [], resetsFramer := false }) ∧
    (∀ n : Fin 16,
      performCall p s (.setBrightness (n.val : Int) false) =
        { session := { s with brightness := n }, result := .done, words := [], resetsFramer := false } ∧
      performCall p s (.setBrightness (n.val : Int) true) =
        performCall p { s with brightness := n }
          (.showChars [s.lastShown.d0, s.lastShown.d1, s.lastShown.d2, s.lastShown.d3]))

/-- R141: the getters return the stored values, without bus activity. -/
def Obligations.GettersArePureReads : Prop :=
  ∀ (p : HostParams) (s : Session), s.ready = true →
    performCall p s .getBrightness =
      { session := s, result := .level s.brightness, words := [], resetsFramer := false } ∧
    performCall p s .isShowDoublePoint =
      { session := s, result := .bool s.doublePoint, words := [], resetsFramer := false }

/-- R142: `addCharacter` inserts or overwrites one entry, any byte, at once, keys being told apart exactly; the other entries
stay. The order of the table is the model's (log 12). -/
def Obligations.AddCharacterPutsOneEntry : Prop :=
  ∀ (p : HostParams) (s : Session) (c : Char) (b : Byte), s.ready = true → s.charMap.sorted = true →
    ∃ t : CharTable,
      performCall p s (.addCharacter c b) =
        { session := { s with charMap := t }, result := .done, words := [], resetsFramer := false } ∧
      t.get? c = some b ∧ (∀ d, d ≠ c → t.get? d = s.charMap.get? d)

/-- R143: setup from the reset state gives exactly the 19 entries the rule lists, and no other; seeding again neither
duplicates nor corrupts: it leaves the table equal. The order of a table, and its being empty before setup, are the
model's (log 12). -/
def Obligations.SeedingGivesTheDefaultTable : Prop :=
  (∀ (k : NumberingScheme) (cp dp : Nat) (ok : Bool), ∃ t : CharTable,
    (performCall State.reset.host.params State.reset.host.session (.setup (some k) cp dp ok)).session.charMap = t ∧
    t.length = 19 ∧ (∀ c b, (c, b) ∈ entriesOfR143 → t.get? c = some b) ∧
    (∀ c, (∀ e ∈ entriesOfR143, e.1 ≠ c) → t.get? c = none)) ∧
  (∀ c b, (c, b) ∈ defaultCharTable → (CharTable.seed [] defaultCharTable).get? c = some b) ∧
  (CharTable.seed [] defaultCharTable).length = 19 ∧
  (∀ (t : CharTable) (es : List (Char × Byte)), t.sorted = true → (t.seed es).seed es = t.seed es) ∧
  (∀ (t : CharTable) (es : List (Char × Byte)) (c : Char), t.sorted = true → (∀ e ∈ es, e.1 ≠ c) →
    (t.seed es).get? c = t.get? c)

/-- R145, R146: `setup` checks in order, seeds, and becomes ready only when the Port reports success; a second setup fails with
IllegalState. The model's choices in it: a successful setup resets the framer at its edge (log 10), a setup the Port fails
leaves the table seeded (log 12), and every other call before setup, getters and `addCharacter` included, fails with
IllegalState before its arguments are looked at (log 14). -/
def Obligations.SetupSucceedsOnce : Prop :=
  ∀ (p : HostParams) (s : Session) (k : NumberingScheme) (cp dp : Nat) (ok : Bool),
    (s.ready = true → ∀ scheme, performCall p s (.setup scheme cp dp ok) =
      { session := s, result := .illegalState .alreadyReady, words := [], resetsFramer := false }) ∧
    (s.ready = false →
      performCall p s (.setup none cp dp ok) =
        { session := s, result := .invalidArgument .schemeUnspecified, words := [], resetsFramer := false } ∧
      performCall p s (.setup (some k) cp dp ok) =
        { session := { s with charMap := s.charMap.seed p.seedTable, ready := ok }
          result := .bool ok, words := [], resetsFramer := ok } ∧
      ∀ c : Call, (∀ scheme cp dp ok, c ≠ .setup scheme cp dp ok) → performCall p s c =
        { session := s, result := .illegalState .notReady, words := [], resetsFramer := false }) ∧
    (s.ready = true → performCall p s .getInstance =
      { session := s, result := .theSession, words := [], resetsFramer := false })

/-- R179: a host-level error is raised before any command is issued, and the framer never sees it: a call that fails issues
nothing, and at its edge the framer's registers stay as they are. That a call has an edge of its own, and is over after it
when it issues nothing, is the model's choice (log 9). -/
def Obligations.FailedCallsNeverReachTheFramer : Prop :=
  (∀ (p : HostParams) (s : Session) (c : Call),
    ((∃ e, (performCall p s c).result = .invalidArgument e) ∨ (∃ e, (performCall p s c).result = .illegalState e)) →
    (performCall p s c).words = [] ∧ (performCall p s c).resetsFramer = false) ∧
  (∀ (s : State) (c : Call) (rest : List HostMove),
    s.framer.phase = .idle → s.host.outbox = [] → s.host.script = .call c :: rest → s.input.rst = false →
    ((∃ e, (performCall s.host.params s.host.session c).result = .invalidArgument e) ∨
      (∃ e, (performCall s.host.params s.host.session c).result = .illegalState e)) →
    ∃ t, step s = .next t ∧ t.framer = s.framer ∧ t.host.outbox = [] ∧ t.host.script = rest)

/-- The edge of a call (the model's convention, log 9 and 10): the session, the result and the words are the call's, and the
framer is reset exactly when the call resets it or the environment does. -/
def Obligations.CallEdgeLoadsTheWords : Prop :=
  ∀ (s : State) (c : Call) (rest : List HostMove),
    s.framer.phase = .idle → s.host.outbox = [] → s.host.script = .call c :: rest →
    ∃ t, step s = .next t ∧
      t.host = { s.host with
        session := (performCall s.host.params s.host.session c).session
        result := (performCall s.host.params s.host.session c).result
        outbox := (performCall s.host.params s.host.session c).words
        script := rest } ∧
      t.framer = if s.input.rst = true ∨ (performCall s.host.params s.host.session c).resetsFramer = true
        then Framer.reset else s.framer
end

