-- ==== Sys2Proof/Laws/State.lean ====
section
/-! SUPPORT. What each named operation does to each register of the framer, and each update of the state to each of its
fields: one lemma per field per operation, true by definition, for simp. -/

namespace Sys2Proof.Machine

@[simp] theorem Framer.drive_clk_clkOe (f : Framer) : (f.drive .clk).clkOe = true := rfl
@[simp] theorem Framer.drive_clk_dioOe (f : Framer) : (f.drive .clk).dioOe = f.dioOe := rfl
@[simp] theorem Framer.drive_clk_sr (f : Framer) : (f.drive .clk).sr = f.sr := rfl
@[simp] theorem Framer.drive_clk_phase (f : Framer) : (f.drive .clk).phase = f.phase := rfl
@[simp] theorem Framer.drive_clk_wcnt (f : Framer) : (f.drive .clk).wcnt = f.wcnt := rfl
@[simp] theorem Framer.drive_clk_bitcnt (f : Framer) : (f.drive .clk).bitcnt = f.bitcnt := rfl
@[simp] theorem Framer.drive_clk_illegal (f : Framer) : (f.drive .clk).illegal = f.illegal := rfl
@[simp] theorem Framer.drive_clk_seqerr (f : Framer) : (f.drive .clk).seqerr = f.seqerr := rfl
@[simp] theorem Framer.drive_clk_ackValid (f : Framer) : (f.drive .clk).ackValid = f.ackValid := rfl
@[simp] theorem Framer.drive_clk_ackLevel (f : Framer) : (f.drive .clk).ackLevel = f.ackLevel := rfl

@[simp] theorem Framer.drive_dio_clkOe (f : Framer) : (f.drive .dio).clkOe = f.clkOe := rfl
@[simp] theorem Framer.drive_dio_dioOe (f : Framer) : (f.drive .dio).dioOe = true := rfl
@[simp] theorem Framer.drive_dio_sr (f : Framer) : (f.drive .dio).sr = f.sr := rfl
@[simp] theorem Framer.drive_dio_phase (f : Framer) : (f.drive .dio).phase = f.phase := rfl
@[simp] theorem Framer.drive_dio_wcnt (f : Framer) : (f.drive .dio).wcnt = f.wcnt := rfl
@[simp] theorem Framer.drive_dio_bitcnt (f : Framer) : (f.drive .dio).bitcnt = f.bitcnt := rfl
@[simp] theorem Framer.drive_dio_illegal (f : Framer) : (f.drive .dio).illegal = f.illegal := rfl
@[simp] theorem Framer.drive_dio_seqerr (f : Framer) : (f.drive .dio).seqerr = f.seqerr := rfl
@[simp] theorem Framer.drive_dio_ackValid (f : Framer) : (f.drive .dio).ackValid = f.ackValid := rfl
@[simp] theorem Framer.drive_dio_ackLevel (f : Framer) : (f.drive .dio).ackLevel = f.ackLevel := rfl

@[simp] theorem Framer.release_clk_clkOe (f : Framer) : (f.release .clk).clkOe = false := rfl
@[simp] theorem Framer.release_clk_dioOe (f : Framer) : (f.release .clk).dioOe = f.dioOe := rfl
@[simp] theorem Framer.release_clk_sr (f : Framer) : (f.release .clk).sr = f.sr := rfl
@[simp] theorem Framer.release_clk_phase (f : Framer) : (f.release .clk).phase = f.phase := rfl
@[simp] theorem Framer.release_clk_wcnt (f : Framer) : (f.release .clk).wcnt = f.wcnt := rfl
@[simp] theorem Framer.release_clk_bitcnt (f : Framer) : (f.release .clk).bitcnt = f.bitcnt := rfl
@[simp] theorem Framer.release_clk_illegal (f : Framer) : (f.release .clk).illegal = f.illegal := rfl
@[simp] theorem Framer.release_clk_seqerr (f : Framer) : (f.release .clk).seqerr = f.seqerr := rfl
@[simp] theorem Framer.release_clk_ackValid (f : Framer) : (f.release .clk).ackValid = f.ackValid := rfl
@[simp] theorem Framer.release_clk_ackLevel (f : Framer) : (f.release .clk).ackLevel = f.ackLevel := rfl

@[simp] theorem Framer.release_dio_clkOe (f : Framer) : (f.release .dio).clkOe = f.clkOe := rfl
@[simp] theorem Framer.release_dio_dioOe (f : Framer) : (f.release .dio).dioOe = false := rfl
@[simp] theorem Framer.release_dio_sr (f : Framer) : (f.release .dio).sr = f.sr := rfl
@[simp] theorem Framer.release_dio_phase (f : Framer) : (f.release .dio).phase = f.phase := rfl
@[simp] theorem Framer.release_dio_wcnt (f : Framer) : (f.release .dio).wcnt = f.wcnt := rfl
@[simp] theorem Framer.release_dio_bitcnt (f : Framer) : (f.release .dio).bitcnt = f.bitcnt := rfl
@[simp] theorem Framer.release_dio_illegal (f : Framer) : (f.release .dio).illegal = f.illegal := rfl
@[simp] theorem Framer.release_dio_seqerr (f : Framer) : (f.release .dio).seqerr = f.seqerr := rfl
@[simp] theorem Framer.release_dio_ackValid (f : Framer) : (f.release .dio).ackValid = f.ackValid := rfl
@[simp] theorem Framer.release_dio_ackLevel (f : Framer) : (f.release .dio).ackLevel = f.ackLevel := rfl

@[simp] theorem Framer.enter_clkOe (f : Framer) (p : Phase) : (f.enter p).clkOe = f.clkOe := rfl
@[simp] theorem Framer.enter_dioOe (f : Framer) (p : Phase) : (f.enter p).dioOe = f.dioOe := rfl
@[simp] theorem Framer.enter_sr (f : Framer) (p : Phase) : (f.enter p).sr = f.sr := rfl
@[simp] theorem Framer.enter_phase (f : Framer) (p : Phase) : (f.enter p).phase = p := rfl
@[simp] theorem Framer.enter_wcnt (f : Framer) (p : Phase) : (f.enter p).wcnt = f.wcnt := rfl
@[simp] theorem Framer.enter_bitcnt (f : Framer) (p : Phase) : (f.enter p).bitcnt = f.bitcnt := rfl
@[simp] theorem Framer.enter_illegal (f : Framer) (p : Phase) : (f.enter p).illegal = f.illegal := rfl
@[simp] theorem Framer.enter_seqerr (f : Framer) (p : Phase) : (f.enter p).seqerr = f.seqerr := rfl
@[simp] theorem Framer.enter_ackValid (f : Framer) (p : Phase) : (f.enter p).ackValid = f.ackValid := rfl
@[simp] theorem Framer.enter_ackLevel (f : Framer) (p : Phase) : (f.enter p).ackLevel = f.ackLevel := rfl

@[simp] theorem Framer.startWait_clkOe (f : Framer) (U : Nat) (p : Phase) : (f.startWait U p).clkOe = f.clkOe := rfl
@[simp] theorem Framer.startWait_dioOe (f : Framer) (U : Nat) (p : Phase) : (f.startWait U p).dioOe = f.dioOe := rfl
@[simp] theorem Framer.startWait_sr (f : Framer) (U : Nat) (p : Phase) : (f.startWait U p).sr = f.sr := rfl
@[simp] theorem Framer.startWait_phase (f : Framer) (U : Nat) (p : Phase) : (f.startWait U p).phase = p := rfl
@[simp] theorem Framer.startWait_wcnt (f : Framer) (U : Nat) (p : Phase) : (f.startWait U p).wcnt = U - 1 := rfl
@[simp] theorem Framer.startWait_bitcnt (f : Framer) (U : Nat) (p : Phase) : (f.startWait U p).bitcnt = f.bitcnt := rfl
@[simp] theorem Framer.startWait_illegal (f : Framer) (U : Nat) (p : Phase) : (f.startWait U p).illegal = f.illegal := rfl
@[simp] theorem Framer.startWait_seqerr (f : Framer) (U : Nat) (p : Phase) : (f.startWait U p).seqerr = f.seqerr := rfl
@[simp] theorem Framer.startWait_ackValid (f : Framer) (U : Nat) (p : Phase) : (f.startWait U p).ackValid = f.ackValid := rfl
@[simp] theorem Framer.startWait_ackLevel (f : Framer) (U : Nat) (p : Phase) : (f.startWait U p).ackLevel = f.ackLevel := rfl

@[simp] theorem Framer.raise_illegal_clkOe (f : Framer) (c : Bool) : (f.raise .illegal c).clkOe = f.clkOe := rfl
@[simp] theorem Framer.raise_illegal_dioOe (f : Framer) (c : Bool) : (f.raise .illegal c).dioOe = f.dioOe := rfl
@[simp] theorem Framer.raise_illegal_sr (f : Framer) (c : Bool) : (f.raise .illegal c).sr = f.sr := rfl
@[simp] theorem Framer.raise_illegal_phase (f : Framer) (c : Bool) : (f.raise .illegal c).phase = f.phase := rfl
@[simp] theorem Framer.raise_illegal_wcnt (f : Framer) (c : Bool) : (f.raise .illegal c).wcnt = f.wcnt := rfl
@[simp] theorem Framer.raise_illegal_bitcnt (f : Framer) (c : Bool) : (f.raise .illegal c).bitcnt = f.bitcnt := rfl
@[simp] theorem Framer.raise_illegal_illegal (f : Framer) (c : Bool) : (f.raise .illegal c).illegal = (f.illegal || c) := rfl
@[simp] theorem Framer.raise_illegal_seqerr (f : Framer) (c : Bool) : (f.raise .illegal c).seqerr = f.seqerr := rfl
@[simp] theorem Framer.raise_illegal_ackValid (f : Framer) (c : Bool) : (f.raise .illegal c).ackValid = f.ackValid := rfl
@[simp] theorem Framer.raise_illegal_ackLevel (f : Framer) (c : Bool) : (f.raise .illegal c).ackLevel = f.ackLevel := rfl

@[simp] theorem Framer.raise_seqerr_clkOe (f : Framer) (c : Bool) : (f.raise .seqerr c).clkOe = f.clkOe := rfl
@[simp] theorem Framer.raise_seqerr_dioOe (f : Framer) (c : Bool) : (f.raise .seqerr c).dioOe = f.dioOe := rfl
@[simp] theorem Framer.raise_seqerr_sr (f : Framer) (c : Bool) : (f.raise .seqerr c).sr = f.sr := rfl
@[simp] theorem Framer.raise_seqerr_phase (f : Framer) (c : Bool) : (f.raise .seqerr c).phase = f.phase := rfl
@[simp] theorem Framer.raise_seqerr_wcnt (f : Framer) (c : Bool) : (f.raise .seqerr c).wcnt = f.wcnt := rfl
@[simp] theorem Framer.raise_seqerr_bitcnt (f : Framer) (c : Bool) : (f.raise .seqerr c).bitcnt = f.bitcnt := rfl
@[simp] theorem Framer.raise_seqerr_illegal (f : Framer) (c : Bool) : (f.raise .seqerr c).illegal = f.illegal := rfl
@[simp] theorem Framer.raise_seqerr_seqerr (f : Framer) (c : Bool) : (f.raise .seqerr c).seqerr = (f.seqerr || c) := rfl
@[simp] theorem Framer.raise_seqerr_ackValid (f : Framer) (c : Bool) : (f.raise .seqerr c).ackValid = f.ackValid := rfl
@[simp] theorem Framer.raise_seqerr_ackLevel (f : Framer) (c : Bool) : (f.raise .seqerr c).ackLevel = f.ackLevel := rfl

@[simp] theorem Framer.loadByte_clkOe (f : Framer) (b : Byte) : (f.loadByte b).clkOe = f.clkOe := rfl
@[simp] theorem Framer.loadByte_dioOe (f : Framer) (b : Byte) : (f.loadByte b).dioOe = f.dioOe := rfl
@[simp] theorem Framer.loadByte_sr (f : Framer) (b : Byte) : (f.loadByte b).sr = b := rfl
@[simp] theorem Framer.loadByte_phase (f : Framer) (b : Byte) : (f.loadByte b).phase = f.phase := rfl
@[simp] theorem Framer.loadByte_wcnt (f : Framer) (b : Byte) : (f.loadByte b).wcnt = f.wcnt := rfl
@[simp] theorem Framer.loadByte_bitcnt (f : Framer) (b : Byte) : (f.loadByte b).bitcnt = 0#4 := rfl
@[simp] theorem Framer.loadByte_illegal (f : Framer) (b : Byte) : (f.loadByte b).illegal = f.illegal := rfl
@[simp] theorem Framer.loadByte_seqerr (f : Framer) (b : Byte) : (f.loadByte b).seqerr = f.seqerr := rfl
@[simp] theorem Framer.loadByte_ackValid (f : Framer) (b : Byte) : (f.loadByte b).ackValid = f.ackValid := rfl
@[simp] theorem Framer.loadByte_ackLevel (f : Framer) (b : Byte) : (f.loadByte b).ackLevel = f.ackLevel := rfl

@[simp] theorem Framer.placeBit_clkOe (f : Framer) : (f.placeBit).clkOe = f.clkOe := rfl
@[simp] theorem Framer.placeBit_dioOe (f : Framer) : (f.placeBit).dioOe = (!f.sr.getLsbD 0) := rfl
@[simp] theorem Framer.placeBit_sr (f : Framer) : (f.placeBit).sr = f.sr >>> 1 := rfl
@[simp] theorem Framer.placeBit_phase (f : Framer) : (f.placeBit).phase = f.phase := rfl
@[simp] theorem Framer.placeBit_wcnt (f : Framer) : (f.placeBit).wcnt = f.wcnt := rfl
@[simp] theorem Framer.placeBit_bitcnt (f : Framer) : (f.placeBit).bitcnt = f.bitcnt := rfl
@[simp] theorem Framer.placeBit_illegal (f : Framer) : (f.placeBit).illegal = f.illegal := rfl
@[simp] theorem Framer.placeBit_seqerr (f : Framer) : (f.placeBit).seqerr = f.seqerr := rfl
@[simp] theorem Framer.placeBit_ackValid (f : Framer) : (f.placeBit).ackValid = f.ackValid := rfl
@[simp] theorem Framer.placeBit_ackLevel (f : Framer) : (f.placeBit).ackLevel = f.ackLevel := rfl

@[simp] theorem Framer.countBit_clkOe (f : Framer) : (f.countBit).clkOe = f.clkOe := rfl
@[simp] theorem Framer.countBit_dioOe (f : Framer) : (f.countBit).dioOe = f.dioOe := rfl
@[simp] theorem Framer.countBit_sr (f : Framer) : (f.countBit).sr = f.sr := rfl
@[simp] theorem Framer.countBit_phase (f : Framer) : (f.countBit).phase = f.phase := rfl
@[simp] theorem Framer.countBit_wcnt (f : Framer) : (f.countBit).wcnt = f.wcnt := rfl
@[simp] theorem Framer.countBit_bitcnt (f : Framer) : (f.countBit).bitcnt = f.bitcnt + 1#4 := rfl
@[simp] theorem Framer.countBit_illegal (f : Framer) : (f.countBit).illegal = f.illegal := rfl
@[simp] theorem Framer.countBit_seqerr (f : Framer) : (f.countBit).seqerr = f.seqerr := rfl
@[simp] theorem Framer.countBit_ackValid (f : Framer) : (f.countBit).ackValid = f.ackValid := rfl
@[simp] theorem Framer.countBit_ackLevel (f : Framer) : (f.countBit).ackLevel = f.ackLevel := rfl

@[simp] theorem Framer.clearCount_clkOe (f : Framer) : (f.clearCount).clkOe = f.clkOe := rfl
@[simp] theorem Framer.clearCount_dioOe (f : Framer) : (f.clearCount).dioOe = f.dioOe := rfl
@[simp] theorem Framer.clearCount_sr (f : Framer) : (f.clearCount).sr = f.sr := rfl
@[simp] theorem Framer.clearCount_phase (f : Framer) : (f.clearCount).phase = f.phase := rfl
@[simp] theorem Framer.clearCount_wcnt (f : Framer) : (f.clearCount).wcnt = f.wcnt := rfl
@[simp] theorem Framer.clearCount_bitcnt (f : Framer) : (f.clearCount).bitcnt = 0#4 := rfl
@[simp] theorem Framer.clearCount_illegal (f : Framer) : (f.clearCount).illegal = f.illegal := rfl
@[simp] theorem Framer.clearCount_seqerr (f : Framer) : (f.clearCount).seqerr = f.seqerr := rfl
@[simp] theorem Framer.clearCount_ackValid (f : Framer) : (f.clearCount).ackValid = f.ackValid := rfl
@[simp] theorem Framer.clearCount_ackLevel (f : Framer) : (f.clearCount).ackLevel = f.ackLevel := rfl

@[simp] theorem Framer.sampleAck_present_clkOe (f : Framer) (d : Bool) : (f.sampleAck .present d).clkOe = f.clkOe := rfl
@[simp] theorem Framer.sampleAck_present_dioOe (f : Framer) (d : Bool) : (f.sampleAck .present d).dioOe = f.dioOe := rfl
@[simp] theorem Framer.sampleAck_present_sr (f : Framer) (d : Bool) : (f.sampleAck .present d).sr = f.sr := rfl
@[simp] theorem Framer.sampleAck_present_phase (f : Framer) (d : Bool) : (f.sampleAck .present d).phase = f.phase := rfl
@[simp] theorem Framer.sampleAck_present_wcnt (f : Framer) (d : Bool) : (f.sampleAck .present d).wcnt = f.wcnt := rfl
@[simp] theorem Framer.sampleAck_present_bitcnt (f : Framer) (d : Bool) : (f.sampleAck .present d).bitcnt = f.bitcnt := rfl
@[simp] theorem Framer.sampleAck_present_illegal (f : Framer) (d : Bool) : (f.sampleAck .present d).illegal = f.illegal := rfl
@[simp] theorem Framer.sampleAck_present_seqerr (f : Framer) (d : Bool) : (f.sampleAck .present d).seqerr = f.seqerr := rfl
@[simp] theorem Framer.sampleAck_present_ackValid (f : Framer) (d : Bool) : (f.sampleAck .present d).ackValid = (!f.dioOe) := rfl
@[simp] theorem Framer.sampleAck_present_ackLevel (f : Framer) (d : Bool) : (f.sampleAck .present d).ackLevel = d := rfl

@[simp] theorem Framer.sampleAck_absent (f : Framer) (d : Bool) : f.sampleAck .absent d = f := rfl

@[simp] theorem Framer.reset_clkOe : Framer.reset.clkOe = false := rfl
@[simp] theorem Framer.reset_dioOe : Framer.reset.dioOe = false := rfl
@[simp] theorem Framer.reset_sr : Framer.reset.sr = 0x00#8 := rfl
@[simp] theorem Framer.reset_phase : Framer.reset.phase = .idle := rfl
@[simp] theorem Framer.reset_wcnt : Framer.reset.wcnt = 0 := rfl
@[simp] theorem Framer.reset_bitcnt : Framer.reset.bitcnt = 0#4 := rfl
@[simp] theorem Framer.reset_illegal : Framer.reset.illegal = false := rfl
@[simp] theorem Framer.reset_seqerr : Framer.reset.seqerr = false := rfl
@[simp] theorem Framer.reset_ackValid : Framer.reset.ackValid = false := rfl
@[simp] theorem Framer.reset_ackLevel : Framer.reset.ackLevel = false := rfl

@[simp] theorem State.onFramer_framer (s : State) (g : Framer → Framer) : (s.onFramer g).framer = g s.framer := rfl
@[simp] theorem State.onFramer_build (s : State) (g : Framer → Framer) : (s.onFramer g).build = s.build := rfl
@[simp] theorem State.onFramer_host (s : State) (g : Framer → Framer) : (s.onFramer g).host = s.host := rfl
@[simp] theorem State.onFramer_env (s : State) (g : Framer → Framer) : (s.onFramer g).env = s.env := rfl
@[simp] theorem State.onFramer_edge (s : State) (g : Framer → Framer) : (s.onFramer g).edge = s.edge := rfl

@[simp] theorem resetEdge_framer (s : State) : (resetEdge s).framer = Framer.reset := rfl
@[simp] theorem resetEdge_build (s : State) : (resetEdge s).build = s.build := rfl
@[simp] theorem resetEdge_host (s : State) : (resetEdge s).host = s.host := rfl
@[simp] theorem resetEdge_env (s : State) : (resetEdge s).env = s.env := rfl
@[simp] theorem resetEdge_edge (s : State) : (resetEdge s).edge = s.edge := rfl

@[simp] theorem State.advance_framer (s : State) : (s.advance).framer = s.framer := rfl
@[simp] theorem State.advance_build (s : State) : (s.advance).build = s.build := rfl
@[simp] theorem State.advance_host (s : State) : (s.advance).host = (if s.accepts then s.hostTurn.ifAccepted else s.hostTurn.ifNot) := rfl
@[simp] theorem State.advance_env (s : State) : (s.advance).env = s.env.tail := rfl
@[simp] theorem State.advance_edge (s : State) : (s.advance).edge = s.edge + 1 := rfl

@[simp] theorem State.offering_framer (s : State) (w : CommandWord) : (s.offering w).framer = s.framer.enter .idle := rfl
@[simp] theorem State.offering_build (s : State) (w : CommandWord) : (s.offering w).build = s.build := rfl
@[simp] theorem State.offering_host (s : State) (w : CommandWord) : (s.offering w).host = { s.host with outbox := w :: s.host.outbox } := rfl
@[simp] theorem State.offering_env (s : State) (w : CommandWord) : (s.offering w).env = clearNextReset s.env := rfl
@[simp] theorem State.offering_edge (s : State) (w : CommandWord) : (s.offering w).edge = s.edge := rfl

end Sys2Proof.Machine
end

