-- ==== Sys2Proof/Laws/Ops.lean ====
section
/-! SUPPORT. One lemma per shared operation that says once everything it can do: waiting, reading an input of a coming
edge, accepting a word, and the host's turn. Later proofs cite these and do not unfold the operations. -/

namespace Sys2Proof.Machine

theorem Framer.waiting_of_pos (f : Framer) (next : Framer → Framer) (h : f.wcnt ≠ 0) :
    f.waiting next = { f with wcnt := f.wcnt - 1 } := by
  simp [Framer.waiting, h]

theorem Framer.waiting_of_zero (f : Framer) (next : Framer → Framer) (h : f.wcnt = 0) :
    f.waiting next = next f := by
  simp [Framer.waiting, h]

/-- A waiting phase with its counter running does nothing but count (R92). -/
theorem phaseEdge_counts_down (b : Build) (d : Bool) (f : Framer) (hw : f.wcnt ≠ 0)
    (hi : f.phase ≠ .idle) (hd : f.phase ≠ .bitData) :
    phaseEdge b d f = { f with wcnt := f.wcnt - 1 } := by
  unfold phaseEdge
  cases hp : f.phase <;>
    simp_all [startWEdge, stopW0Edge, stopW1Edge, stopW2Edge, bitLowWEdge, bitHighWEdge, ackLowWEdge, ackHighWEdge,
      ackEndWEdge, Framer.waiting]

theorem phaseEdge_idle (b : Build) (d : Bool) (f : Framer) (h : f.phase = .idle) : phaseEdge b d f = f := by
  simp [phaseEdge, h]

theorem Framer.cmdReady_iff (f : Framer) : f.cmdReady = true ↔ f.phase = .idle := by
  simp [Framer.cmdReady]

/-- The inputs of the coming edges move up by one at each edge. -/
theorem State.inputAt_advance (s : State) (j : Nat) : s.advance.inputAt j = s.inputAt (j + 1) := by
  simp [State.inputAt, State.advance, Nat.add_assoc, Nat.add_comm 1 j]

/-- The inputs depend on the listed ones and the edge's number alone. -/
theorem State.inputAt_congr {s t : State} (he : s.env = t.env) (hn : s.edge = t.edge) (j : Nat) :
    s.inputAt j = t.inputAt j := by
  simp [State.inputAt, he, hn]

/-- When an edge accepts a command (R90). -/
theorem State.accepts_iff (s : State) :
    s.accepts = true ↔ s.rst = false ∧ s.cmdValid = true ∧ s.framer.phase = .idle := by
  simp [State.accepts, State.cmdReady, Framer.cmdReady_iff, and_assoc]

theorem State.not_accepts_of_busy (s : State) (h : s.framer.phase ≠ .idle) : s.accepts = false := by
  cases ha : s.accepts
  · rfl
  · exact absurd ((State.accepts_iff s).1 ha).2.2 h

/-- The host never asserts `rst` while a command is in progress: only setup does, and a call waits for `cmd_ready`. -/
theorem HostAgent.turn_rst_of_busy (h : HostAgent) : (h.turn false).rst = false := by
  unfold HostAgent.turn
  split
  · rfl
  · split <;> rfl

/-- A host that offers a word asserts no reset. -/
theorem HostAgent.turn_rst_of_valid (h : HostAgent) (r : Bool) (hv : (h.turn r).cmdValid = true) :
    (h.turn r).rst = false := by
  unfold HostAgent.turn at hv ⊢
  split
  · rfl
  · split
    · rfl
    · rfl
    · rfl
    · cases r <;> simp_all [HostTurn.quiet, HostAgent.callTurn]

/-- While a command is in progress, or once a word is accepted, the session stands still. -/
theorem HostAgent.turn_session_of_busy (h : HostAgent) :
    (h.turn false).ifNot.session = h.session ∧ (h.turn false).ifAccepted.session = h.session := by
  unfold HostAgent.turn
  split
  · exact ⟨rfl, rfl⟩
  · split <;> exact ⟨rfl, rfl⟩

theorem HostAgent.turn_session_of_valid (h : HostAgent) (r : Bool) (hv : (h.turn r).cmdValid = true) :
    (h.turn r).ifNot.session = h.session ∧ (h.turn r).ifAccepted.session = h.session := by
  unfold HostAgent.turn at hv ⊢
  split
  · exact ⟨rfl, rfl⟩
  · split
    · exact ⟨rfl, rfl⟩
    · exact ⟨rfl, rfl⟩
    · exact ⟨rfl, rfl⟩
    · cases r <;> simp_all [HostTurn.quiet, HostAgent.callTurn]

/-- The host with words left of its call offers the oldest one and keeps the rest until it is accepted. -/
theorem HostAgent.turn_of_outbox (h : HostAgent) (r : Bool) (w : CommandWord) (ws : List CommandWord)
    (ho : h.outbox = w :: ws) : h.turn r = .offer w { h with outbox := ws } h := by
  simp [HostAgent.turn, ho]

/-- `rst` at the next edge of a busy framer comes from the environment alone. -/
theorem State.rst_of_busy (s : State) (h : s.framer.phase ≠ .idle) : s.rst = (s.inputAt 0).rst := by
  have hr : s.cmdReady = false := by simp [State.cmdReady, Framer.cmdReady, h]
  simp [State.rst, State.input, State.hostTurn, hr, HostAgent.turn_rst_of_busy]

end Sys2Proof.Machine
end

