-- ==== Sys2Proof/Laws/PerInstr.lean ====
section
/-! SUPPORT. Statements about every instruction as syntax, one lemma per constructor: the operation field of its encoding is
the one the opcode map gives it (30_encoding.md R71). -/

namespace Sys2Proof.Laws.OpField

/-- The `op` value of a command in the opcode map (R71). -/
def op : Instr → BitVec 2
  | .start => 0b00#2
  | .stop => 0b01#2
  | .write _ => 0b10#2
  | .reserved _ => 0b11#2

/-- Where the instruction has an encoding, its operation field is its `op`, and it has one exactly when well formed. -/
def Statement (i : Instr) : Prop :=
  (∀ w, encode i = some w → opField w = op i) ∧ ((encode i).isSome = i.wf)

theorem commandWord_op (o : BitVec 2) (d : Byte) : opField (commandWord o d) = o := by
  simp only [opField, commandWord]
  ext i hi
  have h8 : 8 + i < 10 := by omega
  simp [h8, hi]

theorem start : Statement .start := ⟨fun w h => by simp only [encode, Option.some.injEq] at h; rw [← h, commandWord_op]; rfl, rfl⟩

theorem stop : Statement .stop := ⟨fun w h => by simp only [encode, Option.some.injEq] at h; rw [← h, commandWord_op]; rfl, rfl⟩

theorem write (b : Byte) : Statement (.write b) :=
  ⟨fun w h => by simp only [encode, Option.some.injEq] at h; rw [← h, commandWord_op]; rfl, rfl⟩

theorem reserved (data : Byte) : Statement (.reserved data) := ⟨fun w h => by simp [encode] at h, rfl⟩

end Sys2Proof.Laws.OpField
end

