-- ==== Sys2Proof/Laws/Step.lean ====
section
/-! SUPPORT. What a step can do, said once: a reset edge, an accepting edge, or an edge of the phase; and how runs compose. -/

namespace Sys2Proof.Machine

/-- The three kinds of edge (R93). -/
theorem step_cases (s t : State) (h : step s = .next t) :
    (s.rst = true ∧ t = resetEdge s.advance) ∨
    (s.rst = false ∧ s.accepts = true ∧ exec (decode s.cmd) s.advance = .next t) ∨
    (s.rst = false ∧ s.accepts = false ∧ t = s.advance.onFramer (phaseEdge s.build s.dioIn)) := by
  unfold step at h
  split at h
  · rename_i hr; exact .inl ⟨hr, by simpa using h.symm⟩
  · rename_i hr
    split at h
    · rename_i ha; exact .inr (.inl ⟨by simpa using hr, ha, h⟩)
    · rename_i ha; exact .inr (.inr ⟨by simpa using hr, by simpa using ha, by simpa using h.symm⟩)

theorem step_of_rst (s : State) (h : s.rst = true) : step s = .next (resetEdge s.advance) := by
  simp [step, h]

/-- The edge of a command in progress with no reset. -/
theorem step_of_busy (s : State) (hb : s.framer.phase ≠ .idle) (hr : (s.inputAt 0).rst = false) :
    step s = .next (s.advance.onFramer (phaseEdge s.build s.dioIn)) := by
  have h1 : s.rst = false := by rw [State.rst_of_busy s hb, hr]
  simp [step, h1, State.not_accepts_of_busy s hb]

/-- An idle edge with nothing accepted leaves the framer as it is. -/
theorem step_of_quiet (s : State) (hi : s.framer.phase = .idle) (hr : s.rst = false) (ha : s.accepts = false) :
    step s = .next s.advance := by
  have h : s.advance.onFramer (phaseEdge s.build s.dioIn) = s.advance := by
    simp only [State.onFramer, State.advance_framer, phaseEdge_idle _ _ _ hi]
    rfl
  simp [step, hr, ha, h]

@[simp] theorem run_zero (s : State) : run 0 s = .next s := rfl

theorem run_succ (k : Nat) (s t : State) (h : step s = .next t) : run (k + 1) s = run k t := by
  simp [run, h]

/-- A run of `j + k` steps is a run of `j` steps and then one of `k`. -/
theorem run_add (j k : Nat) (s t : State) (h : run j s = .next t) : run (j + k) s = run k t := by
  induction j generalizing s with
  | zero => simp at h; simp [h]
  | succ j ih =>
    rw [Nat.add_right_comm]
    simp only [run] at h ⊢
    split at h
    · exact ih _ h
    · cases h
    · cases h

/-- This file's run is the host interface's run. -/
theorem core_run_eq (k : Nat) (s : State) : Host.Core.run Sys2Proof.core k s = run k s := by
  induction k generalizing s with
  | zero => rfl
  | succ k ih =>
    simp only [Host.Core.run, run]
    cases h : step s with
    | next t => rw [show Sys2Proof.core.step s = .next t from h]; exact ih t
    | fault r => rw [show Sys2Proof.core.step s = .fault r from h]; rfl
    | refused r => rw [show Sys2Proof.core.step s = .refused r from h]; rfl

end Sys2Proof.Machine
end

