-- ==== Sys2Proof/Laws/Table.lean ====
section
/-! SUPPORT. The character table keeps its canonical form: putting an entry and seeding keep the codes strictly rising,
and so does every host call. -/

namespace Sys2Proof.Machine

theorem CharTable.sorted_tail (a : Char × Byte) (t : CharTable) (h : CharTable.sorted (a :: t) = true) :
    CharTable.sorted t = true := by
  cases t with
  | nil => rfl
  | cons b t => simp [CharTable.sorted] at h; exact h.2

/-- Prepending a smaller code keeps a table sorted. -/
theorem CharTable.sorted_cons (a : Char × Byte) (t : CharTable) (ht : CharTable.sorted t = true)
    (ha : ∀ e ∈ t.head?, a.1.toNat < e.1.toNat) : CharTable.sorted (a :: t) = true := by
  cases t with
  | nil => rfl
  | cons b t => simp [CharTable.sorted] at ha ⊢; exact ⟨ha, ht⟩

theorem CharTable.head_put (t : CharTable) (c : Char) (b : Byte) (n : Nat)
    (hc : n < c.toNat) (ht : ∀ e ∈ t.head?, n < e.1.toNat) : ∀ e ∈ (t.put c b).head?, n < e.1.toNat := by
  cases t with
  | nil => simpa [CharTable.put] using hc
  | cons a t =>
    obtain ⟨k, v⟩ := a
    simp only [CharTable.put]
    split
    · simpa using hc
    · split
      · simpa using ht
      · simpa using hc

theorem CharTable.sorted_head (a : Char × Byte) (t : CharTable) (h : CharTable.sorted (a :: t) = true) :
    ∀ e ∈ t.head?, a.1.toNat < e.1.toNat := by
  cases t with
  | nil => simp
  | cons b t => simp [CharTable.sorted] at h; simpa using h.1

/-- Inserting or overwriting keeps the canonical form. -/
theorem CharTable.sorted_put (t : CharTable) (c : Char) (b : Byte) (h : CharTable.sorted t = true) :
    CharTable.sorted (t.put c b) = true := by
  induction t with
  | nil => rfl
  | cons a t ih =>
    obtain ⟨k, v⟩ := a
    have ht := CharTable.sorted_tail _ _ h
    have hh := CharTable.sorted_head _ _ h
    simp only [CharTable.put]
    split
    · rename_i hlt
      exact CharTable.sorted_cons _ _ h (by simpa using hlt)
    · split
      · rename_i _ hgt
        exact CharTable.sorted_cons _ _ (ih ht) (CharTable.head_put t c b _ hgt hh)
      · rename_i h1 h2
        have hk : c.toNat = k.toNat := by omega
        exact CharTable.sorted_cons _ _ ht (by simpa [hk] using hh)

/-- Seeding keeps the canonical form. -/
theorem CharTable.sorted_seed (es : List (Char × Byte)) (t : CharTable) (h : CharTable.sorted t = true) :
    CharTable.sorted (t.seed es) = true := by
  induction es generalizing t with
  | nil => exact h
  | cons e es ih => obtain ⟨c, b⟩ := e; exact ih _ (CharTable.sorted_put t c b h)

theorem performShow_charMap (p : HostParams) (s : Session) (cs : List Char) :
    (performShow p s cs).session.charMap = s.charMap := by
  unfold performShow
  split <;> rfl

theorem flush_charMap (p : HostParams) (s : Session) (a : Bool) : (flush p s a).session.charMap = s.charMap := by
  unfold flush
  split
  · exact performShow_charMap p s _
  · rfl

/-- Every host call keeps the table's canonical form. -/
theorem performCall_sorted (p : HostParams) (s : Session) (c : Call) (h : s.charMap.sorted = true) :
    (performCall p s c).session.charMap.sorted = true := by
  cases c with
  | setup scheme cp dp ok =>
    simp only [performCall, performSetup]
    split
    · exact h
    · split
      · exact h
      · split <;> exact CharTable.sorted_seed _ _ h
  | addCharacter ch b =>
    simp only [performCall, whenReady]
    split
    · exact CharTable.sorted_put _ _ _ h
    · exact h
  | setDoublePoint v a =>
    simp only [performCall, whenReady, performSetDoublePoint]
    split
    · rw [flush_charMap]; exact h
    · exact h
  | setBrightness v a =>
    simp only [performCall, whenReady, performSetBrightness]
    split
    · split
      · exact h
      · rw [flush_charMap]; exact h
    · exact h
  | showChars cs =>
    simp only [performCall, whenReady]
    split
    · rw [performShow_charMap]; exact h
    · exact h
  | getInstance => simp only [performCall, whenReady]; split <;> exact h
  | getBrightness => simp only [performCall, whenReady]; split <;> exact h
  | isShowDoublePoint => simp only [performCall, whenReady]; split <;> exact h

end Sys2Proof.Machine
end

