-- ==== Sys2Proof/Tests/Slice0.lean ====
section
/-! SUPPORT. The model's own tests. Expected values come from spec/95_test_vectors.md (the row is named) or from the rule
named; and one witness for the hypotheses of each statement in Certificates/Slice0/Obligations.lean that has any. -/

namespace Sys2Proof.Tests

open Sys2Proof Sys2Proof.Machine

/-! ### Well-formedness: an ill-formed term for each check -/

/-- R76: `encode` is not defined for RESERVED. -/
theorem test_reserved_is_not_well_formed : (Instr.reserved 0x5A#8).wf = false := by decide
/-- V-E7: `WRITE 256` is refused. -/
theorem test_write_256_is_not_well_formed : (Asm.write 256).wf = false ∧ (Asm.write 255).wf = true := by decide
/-- R75: a raw word has ten bits. -/
theorem test_word_1024_is_not_well_formed : (Asm.word 1024).wf = false ∧ (Asm.word 1023).wf = true := by decide
/-- R132: `n >= 1`, and each byte fits. -/
theorem test_frame_checks : (Asm.frame []).wf = false ∧ (Asm.frame [256]).wf = false ∧ (Asm.frame [255]).wf = true := by
  decide

/-! ### Decoding: words written out from R70 and R71, bit by bit -/

theorem test_decode_start : decode 0b0000000000#10 = .start := by decide
theorem test_decode_stop : decode 0b0100000000#10 = .stop := by decide
/-- V-E3: 0x240 is WRITE 0x40. -/
theorem test_decode_write : decode 0b1001000000#10 = .write 0b01000000#8 := by decide
/-- V-E6: 0x3A5 is reserved. -/
theorem test_decode_reserved : decode 0b1110100101#10 = .reserved 0b10100101#8 := by decide
/-- V-E4: data bits of START are ignored. -/
theorem test_decode_start_with_data : decode 0x0FF#10 = .start := by decide
/-- The port has ten lines (R20). -/
theorem test_decode_refuses_an_eleventh_bit :
    decodeNat 0x400 = .error .widerThanThePort ∧ decodeTableWord 16 0x400 = none := by decide
/-- The table's WRITE row with operand 0x40. -/
theorem test_decode_table_word : decodeTableWord 16 0x240 = some (.write 0x40#8) := by decide
/-- R75 and V-E7 as text. -/
theorem test_read_lines :
    readLine "WRITE 0x40 ; a byte".toList = .statement (.write 0x40) ∧
    readLine ".word 0b1110100101".toList = .statement (.word 0x3A5) ∧
    readLine "WRITE 256".toList = .refused := by decide
/-- R137 as text; a tab separates words as a blank does (log 23). -/
theorem test_read_show :
    readLine "SHOW 0 1 2 3".toList = .statement (.showPseudo ['0', '1', '2', '3']) ∧
    readLine "SHOW\t0 1 2 3".toList = .statement (.showPseudo ['0', '1', '2', '3']) ∧
    readLine "SHOWX".toList = .refused := by decide

/-! ### Small states -/

/-- A build R8 allows: U = 1, T_CLK = T_UNIT = 1 ms. -/
def build (a : AckSample) : Build := { U := 1, tClk := 1, tUnit := 1, ackSample := a }

theorem test_build_is_legal (a : AckSample) : (build a).wf := by
  simp [Build.wf, build]

/-- A ready session with the default table, brightness 7 (V-H1). -/
def session (doublePoint : Bool) : Session :=
  { brightness := 7, doublePoint := doublePoint, lastShown := ⟨'-', '-', '-', '-'⟩
    charMap := CharTable.seed [] defaultCharTable, ready := true }

/-- The example command bytes of 95_test_vectors.md. -/
def params : HostParams :=
  { cmdData := 0x40#8, cmdAddr0 := 0xC0#8, cmdDispctrl := 0x80#8, seedTable := defaultCharTable }

/-- Edges at which nobody else pulls a line or resets. -/
def calm : EdgeInput := { rst := false, extClkPull := false, chipDioPull := false }

/-- A state with the given registers, words still to be offered, and inputs. -/
def state (a : AckSample) (f : Framer) (outbox : List CommandWord) (env : List EdgeInput) : State :=
  { framer := f, build := build a, env := env, edge := 0
    host := { session := session false, params := params, script := [], outbox := outbox, result := .noCall } }

/-- Registers in the middle of a command. -/
def regs (clkOe dioOe : Bool) (p : Phase) (sr : Byte) (bitcnt : BitVec 4) : Framer :=
  { Framer.reset with clkOe := clkOe, dioOe := dioOe, phase := p, sr := sr, bitcnt := bitcnt }

/-- What the next edge leaves in the framer and in `status`. -/
def edgeOf (s : State) : Option (Framer × StatusWord) :=
  match step s with
  | .next t => some (t.framer, t.status)
  | .fault _ => none
  | .refused _ => none

/-! ### One step per command -/

/-- V-S1: START from reset: DIO driven, START_W. -/
theorem test_start_from_reset :
    edgeOf (state .absent Framer.reset [0x000#10] [calm]) =
      some (regs false true .startW 0x00#8 0#4, 0b00001#5) := by decide
/-- V-S4: START after START raises `seqerr`. -/
theorem test_start_after_start_raises_seqerr :
    (edgeOf (state .absent (regs false true .idle 0x00#8 0#4) [0x000#10] [calm])).map Prod.snd =
      some 0b00101#5 := by decide
/-- V-P3: STOP from idle drives DIO. -/
theorem test_stop_from_idle :
    edgeOf (state .absent Framer.reset [0x100#10] [calm]) =
      some (regs false true .stopW0 0x00#8 0#4, 0b00001#5) := by decide
/-- V-W1, edge 31: CLK released. -/
theorem test_stop_releases_clk :
    (edgeOf (state .absent (regs true true .stopW0 0x00#8 0#4) [] [calm])).map Prod.fst =
      some (regs false true .stopW1 0x00#8 0#4) := by decide
/-- V-W1, edge 6: bit 1 of 0x06 is 1, DIO released and `sr` shifted. -/
theorem test_write_places_a_bit :
    (edgeOf (state .absent (regs true true .bitLowW 0x03#8 1#4) [] [calm])).map Prod.fst =
      some (regs true false .bitData 0x01#8 1#4) := by decide
/-- V-A1: the sample with DIO released by the framer and pulled by the chip: `ack_valid = 1`, `ack_level = 0`. -/
theorem test_write_samples_the_ack :
    (edgeOf (state .present (regs false false .ackHighW 0x00#8 8#4) []
      [{ calm with chipDioPull := true }])).map Prod.snd = some 0b01001#5 := by decide
/-- V-R1: a reserved word from reset: `status = 0b00010`, no line change. -/
theorem test_reserved_raises_illegal :
    edgeOf (state .absent Framer.reset [0x3A5#10] [calm]) =
      some ({ Framer.reset with illegal := true }, 0b00010#5) := by decide
/-- V-R4, V-X1: reset in the middle of a WRITE. -/
theorem test_reset_during_a_write :
    edgeOf (state .absent (regs true true .bitLowW 0x00#8 2#4) [] [{ calm with rst := true }]) =
      some (Framer.reset, 0b00000#5) := by decide
/-- The host's check: a word placed by `withFetchWord` runs as the first instruction after reset. -/
theorem test_first_word_after_reset :
    (match step (State.reset.withFetchWord 16 0x240) with
      | .next t => decide (t.framer.sr = 0x40#8 ∧ t.framer.phase = .bitLowW ∧ t.host.outbox = [])
      | .fault _ => false
      | .refused _ => false) = true := by decide

/-! ### The waveforms of Safety.lean against V-W1 -/

/-- V-W1, edges 2, 3, 4, 6 (WRITE 0x06 accepted at 2 with DIO driven). -/
theorem test_write_wave_first_bits :
    writeWave 1 0x06#8 true 0 = (true, true, .bitLowW) ∧ writeWave 1 0x06#8 true 1 = (true, true, .bitData) ∧
    writeWave 1 0x06#8 true 2 = (false, true, .bitHighW) ∧ writeWave 1 0x06#8 true 4 = (true, false, .bitData) := by
  decide
/-- V-W1, edges 2, 3, 4, 6, 26 and 29: `sr` and `bitcnt`. -/
theorem test_write_shift :
    writeShift 1 0x06#8 0 = (0x06#8, 0#4) ∧ writeShift 1 0x06#8 1 = (0x03#8, 0#4) ∧
    writeShift 1 0x06#8 2 = (0x03#8, 1#4) ∧ writeShift 1 0x06#8 4 = (0x01#8, 1#4) ∧
    writeShift 1 0x06#8 24 = (0x00#8, 8#4) ∧ writeShift 1 0x06#8 27 = (0x00#8, 0#4) := by decide
/-- V-W1, edges 26 to 29. -/
theorem test_write_wave_ack :
    writeWave 1 0x06#8 true 24 = (true, true, .ackLowW) ∧ writeWave 1 0x06#8 true 25 = (false, true, .ackHighW) ∧
    writeWave 1 0x06#8 true 26 = (true, true, .ackEndW) ∧ writeWave 1 0x06#8 true 27 = (true, true, .idle) := by
  decide
/-- V-W1, edges 30 to 33. -/
theorem test_stop_wave :
    stopWave 1 true 0 = (true, true, .stopW0) ∧ stopWave 1 true 1 = (false, true, .stopW1) ∧
    stopWave 1 true 2 = (false, false, .stopW2) ∧ stopWave 1 true 3 = (false, false, .idle) := by decide
/-- R201's table at U = 1 and U = 1000 (section 2.8). -/
theorem test_durations :
    commandEdges 1 (.write 0x00#8) = 27 ∧ commandEdges 1000 .stop = 3000 ∧ frameEdges 1 5 = 145 ∧
    frameEdges 1000 1 = 23010 ∧ showEdges 1 = 213 ∧ showEdges 1000 = 145068 := by decide

/-! ### The session -/

/-- V-H2: "0123" with the double point. -/
theorem test_show_words :
    (performCall params (session true) (.showChars ['0', '1', '2', '3'])).words =
      [0x000#10, 0x240#10, 0x100#10, 0x000#10, 0x2C0#10, 0x23F#10, 0x286#10, 0x25B#10, 0x24F#10, 0x100#10,
       0x000#10, 0x287#10, 0x100#10] := by decide
/-- V-H5: keys are case-sensitive. -/
theorem test_show_names_the_unknown_character :
    (performCall params (session false) (.showChars ['0', 'a', '1', '2'])).result =
      .invalidArgument (.unknownCharacter 'a') := by decide
/-- E5: -1 and 16 are refused, 0 and 15 are not. -/
theorem test_brightness_bounds :
    (performCall params (session false) (.setBrightness (-1) false)).result = .invalidArgument .brightnessOutOfRange ∧
    (performCall params (session false) (.setBrightness 16 false)).result = .invalidArgument .brightnessOutOfRange ∧
    (performCall params (session false) (.setBrightness 0 false)).session.brightness = 0 ∧
    (performCall params (session false) (.setBrightness 15 false)).session.brightness = 15 := by decide
/-- E8: before setup, and a second setup. -/
theorem test_setup_once :
    (performCall params { session false with ready := false } .getInstance).result = .illegalState .notReady ∧
    (performCall params (session false) (.setup (some .broadcom) 5 4 true)).result = .illegalState .alreadyReady := by
  decide

/-! ### Witnesses: the hypotheses of each statement are met -/

/-- With enough calm edges listed, the bus is free and no reset comes. -/
theorem calm_bus_is_free (a : AckSample) (f : Framer) (o : List CommandWord) (n k : Nat) (h : k ≤ n) :
    (state a f o (List.replicate n calm)).busFreeFor k := by
  intro j hj
  have hn : j < n := by omega
  simp [State.inputAt, state, hn, calm]

theorem calm_has_no_reset (a : AckSample) (f : Framer) (o : List CommandWord) (n k : Nat) (h : k ≤ n) :
    (state a f o (List.replicate n calm)).noResetFor k := by
  intro j hj
  rw [calm_bus_is_free a f o n k h j hj]

/-- A state whose host has one move to make. -/
def scripted (f : Framer) (m : HostMove) : State :=
  let s := state .absent f [] [calm]
  { s with host := { s.host with script := [m] } }

/-- Offering START, STOP, WRITE 0x40 or a reserved word to an idle framer. -/
def offered (a : AckSample) (w : CommandWord) : State := state a Framer.reset [w] (List.replicate 40 calm)

/-- CommandStreamsRoundTrip. -/
theorem witness_CommandStreamsRoundTrip : ∀ i ∈ [Instr.start, .write 0x40#8, .stop], i.wf = true := by decide

/-- StepRunsTheAcceptedCommand: an accepting state, and table words that decode, at both ends of the ten bits. -/
theorem witness_StepRunsTheAcceptedCommand :
    (offered .absent 0x240#10).accepts = true ∧ decodeTableWord 16 0x000 = some .start ∧
    decodeTableWord 16 0x3FF = some (.reserved 0xFF#8) := by decide

/-- BusyFramerIgnoresTheCommandPort: two states that differ in what their hosts offer, in a busy phase; and a reset. -/
theorem witness_BusyFramerIgnoresTheCommandPort :
    let s := state .absent (regs true true .bitLowW 0x03#8 1#4) [] [calm]
    let t := state .absent (regs true true .bitLowW 0x03#8 1#4) [0x100#10] [calm]
    (s.framer = t.framer ∧ s.build = t.build ∧ s.input = t.input ∧ s.framer.phase ≠ .idle) ∧ s ≠ t ∧
    (state .absent Framer.reset [0x100#10] [{ calm with rst := true }]).rst = true := by
  refine ⟨⟨rfl, rfl, rfl, by decide⟩, ?_, by decide⟩
  intro h
  have := congrArg (fun s => s.host.outbox) h
  simp [state] at this

/-- HostHoldsAnOfferUntilAccepted, second clause: a script's word that is accepted, and one held while the framer is busy. -/
theorem witness_HostHoldsAnIssuedWord :
    (let s := scripted Framer.reset (.issue 0x100#10)
     s.host.outbox = [] ∧ s.host.script = .issue 0x100#10 :: [] ∧ s.accepts = true ∧ ∃ t, step s = .next t) ∧
    (let s := scripted (regs true true .bitLowW 0x03#8 1#4) (.issue 0x100#10)
     s.host.outbox = [] ∧ s.host.script = .issue 0x100#10 :: [] ∧ s.accepts = false ∧ ∃ t, step s = .next t) :=
  ⟨⟨rfl, rfl, by decide, _, rfl⟩, rfl, rfl, by decide, _, rfl⟩

/-- IdleEdgeHoldsEveryRegister: a quiet host with CLK still driven from a WRITE, and a host that drives `cmd_valid = 0`. -/
theorem witness_IdleEdgeHoldsEveryRegister :
    (let s := state .absent (regs true false .idle 0x00#8 0#4) [] [calm]
     s.framer.phase = .idle ∧ s.rst = false ∧ s.accepts = false) ∧
    (let s := scripted Framer.reset (.drive false 0x3FF#10)
     s.framer.phase = .idle ∧ s.rst = false ∧ s.accepts = false) := by decide

/-- HostHoldsAnOfferUntilAccepted: an offer that is accepted, and one that is held. -/
theorem witness_HostHoldsAnOfferUntilAccepted :
    ((offered .absent 0x000#10).host.outbox = 0x000#10 :: [] ∧ ∃ t, step (offered .absent 0x000#10) = .next t) ∧
    ∃ t, step (state .absent (regs true true .bitLowW 0x03#8 1#4) [0x100#10] [calm]) = .next t :=
  ⟨⟨rfl, _, rfl⟩, _, rfl⟩

/-- ParametersNeverChange, FlagsAreStickyAndHaveOneCause, AtMostOneFlagPerEdge: a step that answers next, at an accepted
START, at an accepted reserved word, and at a reset edge. -/
theorem witness_steps_answer_next :
    ((∃ t, step (offered .absent 0x000#10) = .next t) ∧ (offered .absent 0x000#10).acceptsCommand .start) ∧
    ((∃ t, step (offered .absent 0x3A5#10) = .next t) ∧
      (offered .absent 0x3A5#10).acceptsCommand (.reserved 0xA5#8)) ∧
    ((∃ t, step (state .absent Framer.reset [] [{ calm with rst := true }]) = .next t) ∧
      (state .absent Framer.reset [] [{ calm with rst := true }]).rst = true) :=
  ⟨⟨⟨_, rfl⟩, by decide⟩, ⟨⟨_, rfl⟩, by decide⟩, ⟨⟨_, rfl⟩, by decide⟩⟩

/-- ReservedOnlyRaisesIllegal. -/
theorem witness_ReservedOnlyRaisesIllegal :
    (offered .absent 0x300#10).acceptsCommand (.reserved 0x00#8) ∧
    (offered .absent 0x3FF#10).acceptsCommand (.reserved 0xFF#8) := by decide

/-- FrameOfStartAndStop, FrameOfWriteAndReserved. -/
theorem witness_frames :
    (∃ t, exec .start (offered .absent 0x000#10) = .next t) ∧ (∃ t, exec .stop (offered .absent 0x000#10) = .next t) ∧
    (∃ t, exec (.write 0x40#8) (offered .absent 0x000#10) = .next t) ∧
    (∃ t, exec (.reserved 0x40#8) (offered .absent 0x000#10) = .next t) :=
  ⟨⟨_, rfl⟩, ⟨_, rfl⟩, ⟨_, rfl⟩, ⟨_, rfl⟩⟩

/-- WaitOnlyCountsDown, with a counter that runs (from a longer unit) and one that has run out. -/
theorem witness_WaitOnlyCountsDown :
    (let s := state .absent { regs true true .bitLowW 0x03#8 1#4 with wcnt := 3 } [] (List.replicate 40 calm)
     s.framer.phase ≠ .idle ∧ s.framer.phase ≠ .bitData ∧ s.noResetFor s.framer.wcnt) ∧
    (let s := state .absent (regs false true .startW 0x00#8 0#4) [] []
     s.framer.phase ≠ .idle ∧ s.framer.phase ≠ .bitData ∧ s.noResetFor s.framer.wcnt) :=
  ⟨⟨by decide, by decide, calm_has_no_reset _ _ _ 40 3 (by decide)⟩, by decide, by decide, fun _ h => absurd h (Nat.not_lt_zero _)⟩

/-- CommandsTakeTheirDurations, for each command. -/
theorem witness_CommandsTakeTheirDurations :
    ((offered .absent 0x000#10).acceptsCommand .start ∧ 1 ≤ (offered .absent 0x000#10).build.U ∧
      (offered .absent 0x000#10).noResetFor (commandEdges 1 .start + 1)) ∧
    ((offered .absent 0x100#10).acceptsCommand .stop ∧
      (offered .absent 0x100#10).noResetFor (commandEdges 1 .stop + 1)) ∧
    ((offered .absent 0x240#10).acceptsCommand (.write 0x40#8) ∧
      (offered .absent 0x240#10).noResetFor (commandEdges 1 (.write 0x40#8) + 1)) ∧
    ((offered .absent 0x3A5#10).acceptsCommand (.reserved 0xA5#8) ∧
      (offered .absent 0x3A5#10).noResetFor (commandEdges 1 (.reserved 0xA5#8) + 1)) :=
  ⟨⟨by decide, by decide, calm_has_no_reset _ _ _ 40 _ (by decide)⟩,
   ⟨by decide, calm_has_no_reset _ _ _ 40 _ (by decide)⟩,
   ⟨by decide, calm_has_no_reset _ _ _ 40 _ (by decide)⟩,
   ⟨by decide, calm_has_no_reset _ _ _ 40 _ (by decide)⟩⟩

/-- StartRunsItsWaveform and StartMakesAStartCondition. -/
theorem witness_start_runs :
    let s := offered .absent 0x000#10
    s.acceptsCommand .start ∧ s.framer.clkOe = false ∧ s.framer.dioOe = false ∧ 1 ≤ s.build.U ∧
    s.noResetFor (s.build.U + 1) ∧ s.busFreeFor (s.build.U + 2) :=
  ⟨by decide, by decide, by decide, by decide, calm_has_no_reset _ _ _ 40 2 (by decide),
   calm_bus_is_free _ _ _ 40 3 (by decide)⟩

/-- StopRunsItsWaveform, StopMakesAStopCondition and StopFromIdleIsAnEmptyFrame. -/
theorem witness_stop_runs :
    let s := offered .absent 0x100#10
    s.acceptsCommand .stop ∧ s.framer.clkOe = false ∧ s.framer.dioOe = false ∧ 1 ≤ s.build.U ∧
    s.noResetFor (3 * s.build.U + 1) ∧ s.busFreeFor (3 * s.build.U + 2) :=
  ⟨by decide, by decide, by decide, by decide, calm_has_no_reset _ _ _ 40 4 (by decide),
   calm_bus_is_free _ _ _ 40 5 (by decide)⟩

/-- WriteRunsItsWaveform, WriteEndStateAndAckSample and WriteShowsItsBitsOnTheBus, with and without the option, for bytes
whose bit 7 is 0 and 1. -/
theorem witness_write_runs :
    (let s := offered .absent 0x240#10
     s.acceptsCommand (.write 0x40#8) ∧ 1 ≤ s.build.U ∧ s.noResetFor (19 * s.build.U + 9) ∧
     s.busFreeFor (19 * s.build.U + 10)) ∧
    (let s := offered .present 0x280#10
     s.acceptsCommand (.write 0x80#8) ∧ 1 ≤ s.build.U ∧ s.noResetFor (19 * s.build.U + 9) ∧
     s.busFreeFor (19 * s.build.U + 10)) :=
  ⟨⟨by decide, by decide, calm_has_no_reset _ _ _ 40 28 (by decide), calm_bus_is_free _ _ _ 40 29 (by decide)⟩,
   by decide, by decide, calm_has_no_reset _ _ _ 40 28 (by decide), calm_bus_is_free _ _ _ 40 29 (by decide)⟩

/-- AckSampleIsObserveOnly: the same framer with the chip pulling DIO and not, after different samples. -/
theorem witness_AckSampleIsObserveOnly :
    let s := state .present (regs false false .ackHighW 0x00#8 8#4) [] [calm]
    let t := state .present { regs false false .ackHighW 0x00#8 8#4 with ackLevel := true } []
      [{ calm with chipDioPull := true }]
    s.build = t.build ∧ s.host = t.host ∧ s.framer.withoutAck = t.framer.withoutAck ∧
    ∀ j < 1, (s.inputAt j).rst = (t.inputAt j).rst := by
  refine ⟨rfl, rfl, rfl, ?_⟩
  decide

/-- The same without the option, the framers equal. -/
theorem witness_AckSampleIsObserveOnly_absent :
    let s := state .absent (regs false false .ackHighW 0x00#8 8#4) [] [calm]
    let t := state .absent (regs false false .ackHighW 0x00#8 8#4) [] [{ calm with chipDioPull := true }]
    s.build = t.build ∧ s.host = t.host ∧ s.framer.withoutAck = t.framer.withoutAck ∧
    s.build.ackSample = .absent ∧ s.framer = t.framer ∧ ∀ j < 1, (s.inputAt j).rst = (t.inputAt j).rst := by
  refine ⟨rfl, rfl, rfl, rfl, rfl, ?_⟩
  decide

/-- BitIsPlacedInverted. -/
theorem witness_BitIsPlacedInverted :
    let s := state .absent (regs true true .bitLowW 0x03#8 1#4) [] [calm]
    s.framer.phase = .bitLowW ∧ s.framer.wcnt = 0 ∧ s.rst = false := by decide

/-- DioChangesOnlyWhileClkIsDriven: V-W1, edge 6, where DIO does change. -/
theorem witness_DioChangesOnlyWhileClkIsDriven :
    let s := state .absent (regs true true .bitLowW 0x03#8 1#4) [] [calm]
    s.Inv ∧ s.framer.phase ∈ [Phase.bitLowW, .bitData, .bitHighW, .ackLowW, .ackHighW, .ackEndW] ∧ s.rst = false ∧
    ∃ t, step s = .next t ∧ t.framer.dioOe ≠ s.framer.dioOe :=
  ⟨⟨by decide, by decide, by decide, fun _ => by decide, by decide⟩, by decide, by decide, _, rfl, by decide⟩

/-- FrameTakesItsTimeAndShowsItsBytes: a FRAME of one byte (the least length) with a word after it. -/
theorem witness_FrameTakesItsTimeAndShowsItsBytes :
    let s := state .absent Framer.reset (frameWords [0x40#8] ++ [0x000#10]) (List.replicate 40 calm)
    [0x40#8] ≠ [] ∧ 1 ≤ s.build.U ∧ s.framer.phase = .idle ∧ s.framer.clkOe = false ∧ s.framer.dioOe = false ∧
    s.host.outbox = frameWords [0x40#8] ++ [0x000#10] ∧ s.busFreeFor (frameEdges s.build.U 1 + 2) :=
  ⟨by decide, by decide, rfl, rfl, rfl, rfl, calm_bus_is_free _ _ _ 40 35 (by decide)⟩

/-- A ready host about to make one call. -/
def calling (c : Call) : State :=
  let s := state .absent Framer.reset [] (List.replicate 300 calm)
  { s with host := { s.host with script := [.call c] } }

/-- A state with a longer unit, U = 3. -/
def slowly (f : Framer) (outbox : List CommandWord) : State :=
  { state .absent f outbox (List.replicate 40 calm) with build := { build .absent with U := 3 } }

/-- ShowTakesItsTimeAndSendsThreeFrames: `SHOW "0123"`, with nothing after it (a script of calls). -/
theorem witness_ShowTakesItsTimeAndSendsThreeFrames :
    let s := calling (.showChars ['0', '1', '2', '3'])
    1 ≤ s.build.U ∧ s.host.session.ready = true ∧ s.framer.phase = .idle ∧ s.framer.clkOe = false ∧
    s.framer.dioOe = false ∧ s.host.outbox = [] ∧ s.host.script = .call (.showChars ['0', '1', '2', '3']) :: [] ∧
    s.host.session.charMap.get? '0' = some 0x3F#8 ∧ s.host.session.charMap.get? '1' = some 0x06#8 ∧
    s.host.session.charMap.get? '2' = some 0x5B#8 ∧ s.host.session.charMap.get? '3' = some 0x4F#8 ∧
    callsOnly [] = true ∧ s.busFreeFor (showEdges s.build.U + 3) := by
  refine ⟨by decide, rfl, rfl, rfl, rfl, rfl, rfl, by decide, by decide, by decide, by decide, rfl, ?_⟩
  exact fun j hj => calm_bus_is_free .absent Framer.reset [] 300 (showEdges 1 + 3) (by decide) j hj

/-- StatusShowsTheRegisters: both values of the option. -/
theorem witness_StatusShowsTheRegisters :
    (state .present Framer.reset [] []).build.ackSample = .present ∧
    (state .absent Framer.reset [] []).build.ackSample = .absent := by decide

/-- ResetTakesEveryRegister, from the environment in a busy phase and from the host's setup in IDLE. -/
theorem witness_ResetTakesEveryRegister :
    (state .absent (regs true true .bitLowW 0x00#8 2#4) [] [{ calm with rst := true }]).rst = true ∧
    (let s := calling (.setup (some .physical) 1 2 true)
     ({ s with host := { s.host with session := { s.host.session with ready := false } } } : State).rst) = true := by
  decide

/-- UnitLastsAtLeastOneMillisecond: an edge that begins a Wait, and a Wait of three cycles just begun. -/
theorem witness_UnitLastsAtLeastOneMillisecond :
    (∃ t, step (slowly Framer.reset [0x000#10]) = .next t ∧ t.framer.phase ≠ .idle ∧ t.framer.phase.waits) ∧
    (let s := slowly { regs true true .bitLowW 0x03#8 1#4 with wcnt := 2 } []
     s.build.wf ∧ s.framer.phase.waits ∧ s.framer.wcnt = s.build.U - 1 ∧ s.noResetFor s.build.U) := by
  refine ⟨⟨_, rfl, by decide, by decide⟩, ?_, by decide, by decide, by decide⟩
  norm_num [Build.wf, slowly, build]

/-- EveryStepKeepsTheInvariant: a state in the middle of a WRITE meets it. -/
theorem witness_EveryStepKeepsTheInvariant :
    (state .absent (regs true true .bitLowW 0x03#8 1#4) [] [calm]).Inv ∧
    ∃ t, step (state .absent (regs true true .bitLowW 0x03#8 1#4) [] [calm]) = .next t :=
  ⟨⟨by decide, by decide, by decide, fun _ => by decide, by decide⟩, _, rfl⟩

/-- SessionTrafficRaisesNoFlag: a ready host about to show, and a frame in progress. -/
theorem witness_SessionTrafficRaisesNoFlag :
    ((calling (.showChars ['0', '1', '2', '3'])).SessionTraffic ∧
      (calling (.showChars ['0', '1', '2', '3'])).flagsClear = true ∧
      ∃ t, step (calling (.showChars ['0', '1', '2', '3'])) = .next t) ∧
    (state .absent (regs false true .startW 0x00#8 0#4) [0x240#10, 0x100#10] [calm]).SessionTraffic :=
  ⟨⟨⟨⟨by decide, by decide, by decide, fun _ => by decide, by decide⟩, by decide, by decide⟩, by decide, _, rfl⟩,
   ⟨⟨by decide, by decide, by decide, fun _ => by decide, by decide⟩, by decide, by decide⟩⟩

/-- The session statements: a ready session with the default table, one not ready, characters in it and not in it. -/
theorem witness_session_statements :
    (session false).ready = true ∧ ({ session false with ready := false } : Session).ready = false ∧
    (session false).charMap.sorted = true ∧ ['0', '1', '2'].length ≠ 4 ∧
    (session false).charMap.get? '0' ≠ none ∧ (session false).charMap.get? 'x' = none ∧
    ['0', 'x', '1', '2'] = ['0'] ++ 'x' :: ['1', '2'] ∧ params.cmdDispctrl &&& 0x0F#8 = 0x00#8 := by decide

/-- ShowIssuesThreeFrames. -/
theorem witness_ShowIssuesThreeFrames :
    (session true).ready = true ∧ (session true).charMap.get? '8' = some 0x7F#8 ∧
    (session true).charMap.get? ' ' = some 0x00#8 ∧ (session true).charMap.get? '_' = some 0x08#8 := by decide

/-- SeedingGivesTheDefaultTable: a sorted table, an entry of the seed, and a key outside it. -/
theorem witness_SeedingGivesTheDefaultTable :
    ('_', 0x08#8) ∈ defaultCharTable ∧ CharTable.sorted [('L', 0x38#8)] = true ∧
    (∀ e ∈ defaultCharTable, e.1 ≠ 'L') ∧ ('_', 0x08#8) ∈ entriesOfR143 ∧ ∀ e ∈ entriesOfR143, e.1 ≠ 'a' := by decide

/-- SetupSucceedsOnce: a call that is no setup. -/
theorem witness_SetupSucceedsOnce : ∀ scheme cp dp ok, Call.getBrightness ≠ .setup scheme cp dp ok := by
  intro scheme cp dp ok h
  cases h

/-- FailedCallsNeverReachTheFramer and CallEdgeLoadsTheWords: an idle framer, a call next in the script, and calls that
fail in both ways. -/
theorem witness_FailedCallsNeverReachTheFramer :
    (let s := calling (.setBrightness 16 true)
     s.framer.phase = .idle ∧ s.host.outbox = [] ∧ s.host.script = .call (.setBrightness 16 true) :: [] ∧
     s.input.rst = false ∧
     (performCall s.host.params s.host.session (.setBrightness 16 true)).result =
       .invalidArgument .brightnessOutOfRange) ∧
    (performCall params (session false) (.setup none 0 0 true)).result = .illegalState .alreadyReady := by
  refine ⟨⟨rfl, rfl, rfl, ?_, ?_⟩, ?_⟩ <;> decide

end Sys2Proof.Tests
end

section
/-! What every step leaves alone, and the Wait of 40_command-cycle.md R92: it begins with `wcnt = U - 1`, counts down with
every other register held, and the edge that finds `wcnt = 0` leaves the phase (00_scope.md R8). -/

namespace Sys2Proof.Machine

/-! ### Every step touches the framer alone, beside what `advance` moves on -/

/-- The accepting edge of every command writes the framer's registers and nothing else. -/
theorem exec_eq_onFramer (i : Instr) (s : State) : ∃ g, exec i s = .next (s.onFramer g) := by
  cases i <;> exact ⟨_, rfl⟩

theorem step_eq_onFramer {s t : State} (h : step s = .next t) : ∃ g, t = s.advance.onFramer g := by
  rcases step_cases s t h with ⟨-, rfl⟩ | ⟨-, -, he⟩ | ⟨-, -, rfl⟩
  · exact ⟨_, rfl⟩
  · obtain ⟨g, hg⟩ := exec_eq_onFramer (decode s.cmd) s.advance
    exact ⟨g, Host.Outcome.next.inj (he.symm.trans hg)⟩
  · exact ⟨_, rfl⟩

theorem step_build {s t : State} (h : step s = .next t) : t.build = s.build := by
  obtain ⟨g, rfl⟩ := step_eq_onFramer h
  rfl

theorem step_inputAt {s t : State} (h : step s = .next t) (j : Nat) : t.inputAt j = s.inputAt (j + 1) := by
  obtain ⟨g, rfl⟩ := step_eq_onFramer h
  exact s.inputAt_advance j

/-- A run extended by one edge at its end. -/
theorem run_succ_of_run {k : Nat} {s t u : State} (hk : run k s = .next t) (h : step t = .next u) :
    run (k + 1) s = .next u := by
  rw [run_add k 1 s t hk, run_succ 0 t u h, run_zero]

/-! ### How a waiting phase begins, runs and ends -/

/-- The edge that finds a Wait counted to 0 leaves the phase, and if the next phase waits too it has loaded `U - 1`. -/
theorem phaseEdge_of_wait_over (b : Build) (d : Bool) (f : Framer) (hw : f.phase.waits) (hz : f.wcnt = 0) :
    (phaseEdge b d f).phase ≠ f.phase ∧
      ((phaseEdge b d f).phase.waits → (phaseEdge b d f).wcnt = b.U - 1) := by
  cases hp : f.phase with
  | idle => exact absurd hp hw.1
  | bitData => exact absurd hp hw.2
  -- the next action enters IDLE or BIT_DATA
  | startW | stopW2 | bitLowW | ackEndW =>
    simp [phaseEdge, hp, startWEdge, stopW2Edge, bitLowWEdge, ackEndWEdge, f.waiting_of_zero _ hz]
  -- the next action starts the next Wait
  | stopW0 | stopW1 | ackLowW | ackHighW =>
    simp [phaseEdge, hp, stopW0Edge, stopW1Edge, ackLowWEdge, ackHighWEdge, f.waiting_of_zero _ hz]
  | bitHighW =>
    by_cases h8 : f.bitcnt = 8#4 <;> simp [phaseEdge, hp, bitHighWEdge, f.waiting_of_zero _ hz, h8]

/-- An edge of a command in progress that enters a waiting phase does so by `startWait` (R92). -/
theorem phaseEdge_wcnt_of_entered_wait (b : Build) (d : Bool) (f : Framer)
    (hne : (phaseEdge b d f).phase ≠ f.phase) (hw : (phaseEdge b d f).phase.waits) :
    (phaseEdge b d f).wcnt = b.U - 1 := by
  by_cases hi : f.phase = .idle
  · exact absurd (congrArg Framer.phase (phaseEdge_idle b d f hi)) hne
  by_cases hd : f.phase = .bitData
  · simp [phaseEdge, hd, bitDataEdge]
  by_cases hz : f.wcnt = 0
  · exact (phaseEdge_of_wait_over b d f ⟨hi, hd⟩ hz).2 hw
  · exact absurd (congrArg Framer.phase (phaseEdge_counts_down b d f hz hi hd)) hne

/-- The accepting edge of a command that enters a waiting phase does so by `startWait` (R92). -/
theorem exec_wcnt_of_entered_wait (i : Instr) (s t : State) (h : exec i s = .next t)
    (hne : t.framer.phase ≠ s.framer.phase) : t.framer.wcnt = s.build.U - 1 := by
  cases i with
  | reserved data => cases h; exact absurd rfl hne
  | start | stop | write => cases h; rfl

/-- R92: `k` edges into a running Wait with no reset, `k` has been taken off `wcnt` and nothing else of the framer moved. -/
theorem run_wait (s : State) (hw : s.framer.phase.waits) (hr : s.noResetFor s.framer.wcnt) :
    ∀ k ≤ s.framer.wcnt, ∃ t, run k s = .next t ∧ t.framer = { s.framer with wcnt := s.framer.wcnt - k } ∧
      ∀ j, t.inputAt j = s.inputAt (j + k)
  | 0, _ => ⟨s, rfl, rfl, fun _ => rfl⟩
  | k + 1, hk => by
    obtain ⟨t, hrun, hf, hin⟩ := run_wait s hw hr k (by omega)
    have hbusy : t.framer.phase.waits := by rw [hf]; exact hw
    have hwcnt : t.framer.wcnt ≠ 0 := by rw [hf]; exact Nat.sub_ne_zero_of_lt hk
    have hstep := step_of_busy t hbusy.1 (by rw [hin, Nat.zero_add]; exact hr k hk)
    refine ⟨_, run_succ_of_run hrun hstep, ?_, fun j => ?_⟩
    · rw [State.onFramer_framer, State.advance_framer, phaseEdge_counts_down _ _ _ hwcnt hbusy.1 hbusy.2, hf,
        Nat.sub_sub]
    · rw [step_inputAt hstep, hin, Nat.add_right_comm, Nat.add_assoc]

/-- R92: the edge after a Wait has counted to 0 leaves the phase. -/
theorem run_past_wait (s : State) (hw : s.framer.phase.waits) (hr : s.noResetFor (s.framer.wcnt + 1)) :
    ∃ t, run (s.framer.wcnt + 1) s = .next t ∧ t.framer.phase ≠ s.framer.phase := by
  obtain ⟨t, hrun, hf, hin⟩ := run_wait s hw (fun j hj => hr j (by omega)) _ le_rfl
  have hp : t.framer.phase = s.framer.phase := by rw [hf]
  have hstep := step_of_busy t (hp ▸ hw.1) (by rw [hin, Nat.zero_add]; exact hr _ (Nat.lt_succ_self _))
  refine ⟨_, run_succ_of_run hrun hstep, ?_⟩
  have hover : t.framer.wcnt = 0 := by rw [hf]; exact Nat.sub_self _
  exact hp ▸ (phaseEdge_of_wait_over t.build t.dioIn t.framer (hp ▸ hw) hover).1

/-- R92: whatever the kind of edge, a step that enters a waiting phase loads `U - 1`. -/
theorem step_wcnt_of_entered_wait {s t : State} (h : step s = .next t) (hne : t.framer.phase ≠ s.framer.phase)
    (hw : t.framer.phase.waits) : t.framer.wcnt = s.build.U - 1 := by
  rcases step_cases s t h with ⟨-, rfl⟩ | ⟨-, -, he⟩ | ⟨-, -, rfl⟩
  · exact absurd rfl hw.1
  · exact exec_wcnt_of_entered_wait _ s.advance t he hne
  · exact phaseEdge_wcnt_of_entered_wait _ _ _ hne hw

/-- Settles O40: a Wait is entered with `wcnt = U - 1`, so it counts through `U - 1` edges and ends at the `U`-th; R8's
constraints chain to `1 ms ≤ T_UNIT ≤ U * T_CLK`. -/
theorem unitLastsAtLeastOneMillisecond : Obligations.UnitLastsAtLeastOneMillisecond := by
  refine ⟨fun s t h hne hw => (step_build h).symm ▸ step_wcnt_of_entered_wait h hne hw, fun s hb hw hc hr => ?_⟩
  obtain ⟨-, hunit, hU, hslow⟩ := hb
  have hsucc : s.framer.wcnt + 1 = s.build.U := by omega
  refine ⟨fun k hk => ?_, hsucc ▸ run_past_wait s hw (hsucc ▸ hr), hslow, hunit.trans hslow⟩
  obtain ⟨t, hrun, hf, -⟩ := run_wait s hw (fun j hj => hr j (by omega)) k (by omega)
  exact ⟨t, hrun, hc ▸ hf, by rw [hf], by rw [hf], by rw [hf]⟩

end Sys2Proof.Machine
end

section
/-! The edge of R93 as functions of the framer alone: what a command does at its accepting edge, what a phase does when it
ends, and the whole edge as one of them, a reset, or one more cycle of a Wait (40_command-cycle.md R92, R93). Beside it, what
the host has left after an edge. -/

namespace Sys2Proof.Machine

/-! ### The framer's own next-state functions -/

/-- What the accepting edge of a command does to the framer (R94, R100, R102, R110). -/
def acceptEdge (U : Nat) : Instr → Framer → Framer
  | .start, f => ((f.raise .seqerr f.startPreconditionFails).drive .dio).startWait U .startW
  | .stop, f => (f.drive .dio).startWait U .stopW0
  | .write b, f => ((f.loadByte b).drive .clk).startWait U .bitLowW
  | .reserved _, f => f.raise .illegal true

theorem exec_eq_acceptEdge (i : Instr) (s : State) : exec i s = .next (s.onFramer (acceptEdge s.build.U i)) := by
  cases i <;> rfl

/-- What ends each phase: the right-hand sides of R93's `case phase`, taken when no Wait runs any more. -/
def Phase.action (b : Build) (dioIn : Bool) : Phase → Framer → Framer
  | .idle, f => f
  | .startW, f => f.enter .idle
  | .stopW0, f => (f.release .clk).startWait b.U .stopW1
  | .stopW1, f => (f.release .dio).startWait b.U .stopW2
  | .stopW2, f => f.enter .idle
  | .bitLowW, f => f.placeBit.enter .bitData
  | .bitData, f => (f.release .clk).countBit.startWait b.U .bitHighW
  | .bitHighW, f => (f.drive .clk).startWait b.U (if f.bitcnt = 8#4 then .ackLowW else .bitLowW)
  | .ackLowW, f => (f.release .clk).startWait b.U .ackHighW
  | .ackHighW, f => ((f.sampleAck b.ackSample dioIn).drive .clk).startWait b.U .ackEndW
  | .ackEndW, f => f.clearCount.enter .idle

/-- Once its Wait has run out, or where there is none, a phase takes its action. -/
theorem phaseEdge_eq_action (b : Build) (d : Bool) (f : Framer) (hz : f.phase.waits → f.wcnt = 0) :
    phaseEdge b d f = f.phase.action b d f := by
  cases hp : f.phase with
  | idle | bitData => simp [phaseEdge, hp, Phase.action, bitDataEdge]
  | startW | stopW0 | stopW1 | stopW2 | bitLowW | bitHighW | ackLowW | ackHighW | ackEndW =>
    have hz : f.wcnt = 0 := hz (by rw [hp]; decide)
    simp [phaseEdge, hp, Phase.action, startWEdge, stopW0Edge, stopW1Edge, stopW2Edge, bitLowWEdge, bitHighWEdge,
      ackLowWEdge, ackHighWEdge, ackEndWEdge, f.waiting_of_zero _ hz]

/-- The edge of a phase: one more cycle of its Wait, or its action. -/
theorem phaseEdge_cases (b : Build) (d : Bool) (f : Framer) :
    (f.phase.waits ∧ f.wcnt ≠ 0 ∧ phaseEdge b d f = { f with wcnt := f.wcnt - 1 }) ∨
    ((f.phase.waits → f.wcnt = 0) ∧ phaseEdge b d f = f.phase.action b d f) := by
  by_cases h : f.phase.waits ∧ f.wcnt ≠ 0
  · exact .inl ⟨h.1, h.2, phaseEdge_counts_down b d f h.2 h.1.1 h.1.2⟩
  · have hz : f.phase.waits → f.wcnt = 0 := fun hw => not_not.1 fun h0 => h ⟨hw, h0⟩
    exact .inr ⟨hz, phaseEdge_eq_action b d f hz⟩

/-- What the next edge does to the framer (R93). -/
def State.framerEdge (s : State) : Framer → Framer :=
  if s.rst then fun _ => Framer.reset
  else if s.accepts then acceptEdge s.build.U (decode s.cmd)
  else phaseEdge s.build s.dioIn

/-- A step is the framer's edge beside the host's and the environment's. -/
theorem step_eq (s : State) : step s = .next (s.advance.onFramer s.framerEdge) := by
  unfold step State.framerEdge
  split
  · rfl
  · split
    · exact exec_eq_acceptEdge _ _
    · rfl

/-! ### What the host has left after an edge -/

/-- `h'` is `h` further on: the same parameters, and the session but for one call at most. -/
def HostAgent.Follows (h h' : HostAgent) : Prop :=
  h'.params = h.params ∧
    (h'.session = h.session ∨ ∃ c, h'.session = (performCall h.params h.session c).session)

theorem HostAgent.turn_follows (h : HostAgent) (r : Bool) :
    h.Follows (h.turn r).ifAccepted ∧ h.Follows (h.turn r).ifNot := by
  unfold HostAgent.turn
  split
  · exact ⟨⟨rfl, .inl rfl⟩, rfl, .inl rfl⟩
  · split
    · exact ⟨⟨rfl, .inl rfl⟩, rfl, .inl rfl⟩
    · exact ⟨⟨rfl, .inl rfl⟩, rfl, .inl rfl⟩
    · exact ⟨⟨rfl, .inl rfl⟩, rfl, .inl rfl⟩
    · next c _ _ =>
      split
      · exact ⟨⟨rfl, .inr ⟨c, rfl⟩⟩, rfl, .inr ⟨c, rfl⟩⟩
      · exact ⟨⟨rfl, .inl rfl⟩, rfl, .inl rfl⟩

theorem State.advance_follows (s : State) : s.host.Follows s.advance.host := by
  rw [State.advance_host]
  split
  · exact (s.host.turn_follows s.cmdReady).1
  · exact (s.host.turn_follows s.cmdReady).2

/-- Settles O10: a step is `advance` and a change of the framer, and the host's turn writes no parameter. -/
theorem parametersNeverChange : Obligations.ParametersNeverChange := by
  intro s t h
  cases (step_eq s).symm.trans h
  exact ⟨rfl, s.advance_follows.1⟩

end Sys2Proof.Machine
end

section
/-! The invariant of the reachable states (10_state.md R26 to R31), edge by edge: its part that speaks of the framer is kept
by a reset, by an accepting edge, by a cycle of a Wait and by every phase's action; its table by the host's turn. -/

namespace Sys2Proof.Machine

/-! ### The registers of each phase -/

theorem Framer.shapeOk_iff_of_idle {f : Framer} (hp : f.phase = .idle) :
    f.shapeOk = true ↔ f.wcnt = 0 ∧ f.bitcnt = 0#4 ∧ f.sr = 0x00#8 := by
  simp [Framer.shapeOk, hp, and_assoc]

theorem Framer.shapeOk_iff_of_bitData {f : Framer} (hp : f.phase = .bitData) :
    f.shapeOk = true ↔ f.clkOe = true ∧ f.wcnt = 0 ∧ f.bitcnt.toNat < 8 ∧
      f.sr.toNat < 2 ^ (7 - f.bitcnt.toNat) := by
  simp [Framer.shapeOk, hp, and_assoc]

theorem Framer.shapeOk_iff_of_bitLowW {f : Framer} (hp : f.phase = .bitLowW) :
    f.shapeOk = true ↔ f.clkOe = true ∧ f.bitcnt.toNat < 8 ∧ f.sr.toNat < 2 ^ (8 - f.bitcnt.toNat) := by
  simp [Framer.shapeOk, hp, and_assoc]

theorem Framer.shapeOk_iff_of_bitHighW {f : Framer} (hp : f.phase = .bitHighW) :
    f.shapeOk = true ↔ f.clkOe = false ∧ 1 ≤ f.bitcnt.toNat ∧ f.bitcnt.toNat ≤ 8 ∧
      f.sr.toNat < 2 ^ (8 - f.bitcnt.toNat) := by
  simp [Framer.shapeOk, hp, and_assoc]

/-- Where no Wait runs the counter is 0. -/
theorem Framer.wcnt_eq_zero_of_not_waits {f : Framer} (h : f.shapeOk = true) (hw : ¬ f.phase.waits) :
    f.wcnt = 0 := by
  by_cases hi : f.phase = .idle
  · exact ((Framer.shapeOk_iff_of_idle hi).1 h).1
  · have hd : f.phase = .bitData := not_not.1 fun hd => hw ⟨hi, hd⟩
    exact ((Framer.shapeOk_iff_of_bitData hd).1 h).2.1

/-- In a waiting phase the shape does not speak of the counter. -/
theorem Framer.shapeOk_of_waits {f : Framer} (hw : f.phase.waits) (n : Nat) :
    ({ f with wcnt := n } : Framer).shapeOk = f.shapeOk := by
  cases hp : f.phase with
  | idle => exact absurd hp hw.1
  | bitData => exact absurd hp hw.2
  | startW | stopW0 | stopW1 | stopW2 | bitLowW | bitHighW | ackLowW | ackHighW | ackEndW =>
    simp only [Framer.shapeOk, hp]

/-- Placing a bit takes it out of `sr`: one bit less is left (R26). -/
theorem placeBit_shapeOk {f : Framer} (hp : f.phase = .bitLowW) (hz : f.wcnt = 0) (h : f.shapeOk = true) :
    (f.placeBit.enter .bitData).shapeOk = true := by
  obtain ⟨hclk, hcnt, hsr⟩ := (Framer.shapeOk_iff_of_bitLowW hp).1 h
  have hhalf : f.sr.toNat / 2 < 2 ^ (7 - f.bitcnt.toNat) := by
    rw [show 8 - f.bitcnt.toNat = 7 - f.bitcnt.toNat + 1 by omega, pow_succ] at hsr
    omega
  refine (Framer.shapeOk_iff_of_bitData rfl).2 ⟨hclk, hz, hcnt, ?_⟩
  simpa [Nat.shiftRight_eq_div_pow] using hhalf

/-- Counting a bit leaves as many bits in `sr` as are still to be counted (R29). -/
theorem countBit_shapeOk (U : Nat) {f : Framer} (hp : f.phase = .bitData) (h : f.shapeOk = true) :
    ((f.release .clk).countBit.startWait U .bitHighW).shapeOk = true := by
  obtain ⟨-, -, hcnt, hsr⟩ := (Framer.shapeOk_iff_of_bitData hp).1 h
  have hsucc : (f.bitcnt + 1#4).toNat = f.bitcnt.toNat + 1 := by
    rw [BitVec.toNat_add]; exact Nat.mod_eq_of_lt (by simp; omega)
  refine (Framer.shapeOk_iff_of_bitHighW rfl).2 ⟨rfl, ?_⟩
  simp only [Framer.startWait_bitcnt, Framer.startWait_sr, Framer.countBit_bitcnt, Framer.countBit_sr,
    Framer.release_clk_bitcnt, Framer.release_clk_sr, hsucc]
  exact ⟨by omega, by omega, by rwa [Nat.add_comm, ← Nat.sub_sub]⟩

/-- After the eighth bit `sr` is empty and the ack cycle begins; before it another bit does (R110). -/
theorem bitHighW_end_shapeOk (U : Nat) {f : Framer} (hp : f.phase = .bitHighW) (h : f.shapeOk = true) :
    ((f.drive .clk).startWait U (if f.bitcnt = 8#4 then .ackLowW else .bitLowW)).shapeOk = true := by
  obtain ⟨-, -, hcnt, hsr⟩ := (Framer.shapeOk_iff_of_bitHighW hp).1 h
  by_cases h8 : f.bitcnt = 8#4
  · have hempty : f.sr = 0x00#8 := BitVec.eq_of_toNat_eq (by simpa [h8] using hsr)
    simp [h8, Framer.shapeOk, hempty]
  · have hlt : f.bitcnt.toNat < 8 := lt_of_le_of_ne hcnt fun he => h8 (BitVec.eq_of_toNat_eq he)
    rw [if_neg h8]
    exact (Framer.shapeOk_iff_of_bitLowW rfl).2 ⟨rfl, hlt, hsr⟩

/-- Every phase's action ends in the shape of the phase it enters. -/
theorem Phase.action_shapeOk (b : Build) (d : Bool) {f : Framer} (h : f.shapeOk = true)
    (hz : f.phase.waits → f.wcnt = 0) : (f.phase.action b d f).shapeOk = true := by
  have hw0 : f.wcnt = 0 := (em f.phase.waits).elim hz (Framer.wcnt_eq_zero_of_not_waits h)
  cases hp : f.phase with
  | idle => exact h
  | bitLowW => exact placeBit_shapeOk hp hw0 h
  | bitData => exact countBit_shapeOk b.U hp h
  | bitHighW => exact bitHighW_end_shapeOk b.U hp h
  -- the enables are as the action leaves them; `sr` and `bitcnt` are kept, or the count cleared
  | startW | stopW0 | stopW1 | stopW2 | ackLowW | ackEndW => simp_all [Phase.action, Framer.shapeOk]
  -- the sample, where there is one, writes registers the shape does not speak of
  | ackHighW => cases ha : b.ackSample <;> simp_all [Phase.action, Framer.shapeOk]

theorem phaseEdge_shapeOk (b : Build) (d : Bool) {f : Framer} (h : f.shapeOk = true) :
    (phaseEdge b d f).shapeOk = true := by
  rcases phaseEdge_cases b d f with ⟨hw, -, he⟩ | ⟨hz, he⟩
  · rw [he, Framer.shapeOk_of_waits hw, h]
  · rw [he]; exact Phase.action_shapeOk b d h hz

/-- The bound of R28: an edge counts down, or begins a Wait with `U - 1`, or ends in a phase whose counter is 0. -/
theorem phaseEdge_wcnt_le (b : Build) (d : Bool) {f : Framer} (h : f.shapeOk = true) (hf : f.wcnt ≤ b.U - 1) :
    (phaseEdge b d f).wcnt ≤ b.U - 1 := by
  rcases phaseEdge_cases b d f with ⟨-, -, he⟩ | ⟨hz, -⟩
  · rw [he]; exact (Nat.sub_le _ _).trans hf
  by_cases hw : (phaseEdge b d f).phase.waits
  · by_cases hne : (phaseEdge b d f).phase = f.phase
    · have hfw : f.phase.waits := hne ▸ hw
      exact absurd hne (phaseEdge_of_wait_over b d f hfw (hz hfw)).1
    · exact (phaseEdge_wcnt_of_entered_wait b d f hne hw).le
  · rw [Framer.wcnt_eq_zero_of_not_waits (phaseEdge_shapeOk b d h) hw]; exact Nat.zero_le _

/-- Only ACK_HIGH_W has an action that could write the sample registers, and without the option it does not (R111). -/
theorem phaseEdge_ack_of_absent (b : Build) (d : Bool) (f : Framer) (ha : b.ackSample = .absent) :
    (phaseEdge b d f).ackValid = f.ackValid ∧ (phaseEdge b d f).ackLevel = f.ackLevel := by
  rcases phaseEdge_cases b d f with ⟨-, -, he⟩ | ⟨-, he⟩
  · rw [he]; exact ⟨rfl, rfl⟩
  · rw [he]
    cases f.phase with
    | ackHighW => simp [Phase.action, ha]
    | idle | startW | stopW0 | stopW1 | stopW2 | bitLowW | bitData | bitHighW | ackLowW | ackEndW => exact ⟨rfl, rfl⟩

/-! ### The accepting edge -/

/-- A command accepted in IDLE, where `sr` and `bitcnt` are 0, ends in the shape of the phase it enters. -/
theorem acceptEdge_shapeOk (U : Nat) (i : Instr) {f : Framer} (hp : f.phase = .idle) (h : f.shapeOk = true) :
    (acceptEdge U i f).shapeOk = true := by
  obtain ⟨hw, hb, hs⟩ := (Framer.shapeOk_iff_of_idle hp).1 h
  cases i with
  | start | stop => simp [acceptEdge, Framer.shapeOk, hb, hs]
  | write b => exact (Framer.shapeOk_iff_of_bitLowW rfl).2 ⟨rfl, Nat.succ_pos 7, b.isLt⟩
  | reserved _ => exact (Framer.shapeOk_iff_of_idle hp).2 ⟨hw, hb, hs⟩

theorem acceptEdge_wcnt_le (U : Nat) (i : Instr) {f : Framer} (hf : f.wcnt ≤ U - 1) :
    (acceptEdge U i f).wcnt ≤ U - 1 := by
  cases i with
  | start | stop | write _ => exact le_rfl
  | reserved _ => exact hf

theorem acceptEdge_ack (U : Nat) (i : Instr) (f : Framer) :
    (acceptEdge U i f).ackValid = f.ackValid ∧ (acceptEdge U i f).ackLevel = f.ackLevel := by
  cases i <;> exact ⟨rfl, rfl⟩

/-! ### The invariant -/

/-- The part of `State.Inv` that speaks of the framer's registers. -/
structure Framer.Inv (b : Build) (f : Framer) : Prop where
  wait : f.wcnt ≤ b.U - 1
  shape : f.shapeOk = true
  ack : b.ackSample = .absent → f.ackValid = false ∧ f.ackLevel = false

theorem State.Inv.framer_inv {s : State} (h : s.Inv) : s.framer.Inv s.build := ⟨h.wait, h.shape, h.ack⟩

theorem Framer.reset_inv (b : Build) : Framer.reset.Inv b := ⟨Nat.zero_le _, rfl, fun _ => ⟨rfl, rfl⟩⟩

theorem acceptEdge_inv (b : Build) (i : Instr) {f : Framer} (hp : f.phase = .idle) (h : f.Inv b) :
    (acceptEdge b.U i f).Inv b where
  wait := acceptEdge_wcnt_le b.U i h.wait
  shape := acceptEdge_shapeOk b.U i hp h.shape
  ack ha := by rw [(acceptEdge_ack b.U i f).1, (acceptEdge_ack b.U i f).2]; exact h.ack ha

theorem phaseEdge_inv (b : Build) (d : Bool) {f : Framer} (h : f.Inv b) : (phaseEdge b d f).Inv b where
  wait := phaseEdge_wcnt_le b d h.shape h.wait
  shape := phaseEdge_shapeOk b d h.shape
  ack ha := by
    obtain ⟨hv, hl⟩ := phaseEdge_ack_of_absent b d f ha
    rw [hv, hl]; exact h.ack ha

theorem framerEdge_inv {s : State} (h : s.framer.Inv s.build) : (s.framerEdge s.framer).Inv s.build := by
  unfold State.framerEdge
  split
  · exact Framer.reset_inv _
  · split
    · next ha => exact acceptEdge_inv _ _ ((State.accepts_iff s).1 ha).2.2 h
    · exact phaseEdge_inv _ _ h

/-- The host's turn keeps the table's canonical form. -/
theorem HostAgent.Follows.sorted {h h' : HostAgent} (hf : h.Follows h') (hs : h.session.charMap.sorted = true) :
    h'.session.charMap.sorted = true := by
  rcases hf.2 with he | ⟨c, he⟩
  · rw [he]; exact hs
  · rw [he]; exact performCall_sorted _ _ c hs

/-- Settles O41: the framer's edge keeps its part of the invariant, the host's turn the table's, and no step writes U. -/
theorem everyStepKeepsTheInvariant : Obligations.EveryStepKeepsTheInvariant := by
  intro s t hs h
  cases (step_eq s).symm.trans h
  obtain ⟨hwait, hshape, hack⟩ := framerEdge_inv hs.framer_inv
  exact ⟨hs.unit, hwait, hshape, hack, s.advance_follows.sorted hs.table⟩

end Sys2Proof.Machine
end

section
/-! Noninterference of the acknowledgment sample (10_state.md R31, 42_byte-write.md R111): nothing but the sample registers
depends on them, or on what another agent pulls. -/

namespace Sys2Proof.Machine

/-! ### The framer's edge -/

theorem acceptEdge_withoutAck (U : Nat) (i : Instr) (f : Framer) :
    (acceptEdge U i f).withoutAck = acceptEdge U i f.withoutAck := by
  cases i <;> rfl

theorem Phase.action_withoutAck (b : Build) (d d' : Bool) (p : Phase) (f : Framer) :
    (p.action b d f).withoutAck = (p.action b d' f.withoutAck).withoutAck := by
  cases p with
  | ackHighW => simp only [Phase.action]; cases b.ackSample <;> rfl
  | idle | startW | stopW0 | stopW1 | stopW2 | bitLowW | bitData | bitHighW | ackLowW | ackEndW => rfl

/-- But for the sample registers, the edge depends neither on them nor on `dio_in`. -/
theorem phaseEdge_withoutAck (b : Build) (d d' : Bool) (f : Framer) :
    (phaseEdge b d f).withoutAck = (phaseEdge b d' f.withoutAck).withoutAck := by
  rcases phaseEdge_cases b d f with ⟨hw, h0, he⟩ | ⟨hz, he⟩
  · rw [he, phaseEdge_counts_down b d' f.withoutAck h0 hw.1 hw.2]; rfl
  · rw [he, phaseEdge_eq_action b d' f.withoutAck hz]; exact f.phase.action_withoutAck b d d' f

/-- A framer without the option does not read `dio_in`. -/
theorem phaseEdge_dioIn_of_absent (b : Build) (d d' : Bool) (ha : b.ackSample = .absent) :
    phaseEdge b d = phaseEdge b d' := by
  funext f
  simp only [phaseEdge, ackHighWEdge, ha, Framer.sampleAck_absent]

/-! ### Two runs that differ in the pulls and the samples -/

/-- Alike in everything a step reads but the coming inputs, the sample registers left out. -/
structure State.AgreeButAck (s t : State) : Prop where
  build : s.build = t.build
  host : s.host = t.host
  framer : s.framer.withoutAck = t.framer.withoutAck

section
variable {s t : State} (h : s.AgreeButAck t)
include h

theorem State.AgreeButAck.cmdReady : s.cmdReady = t.cmdReady := by
  have hp : s.framer.withoutAck.phase = t.framer.withoutAck.phase := congrArg Framer.phase h.framer
  exact congrArg (· == Phase.idle) hp

theorem State.AgreeButAck.hostTurn : s.hostTurn = t.hostTurn := by
  rw [State.hostTurn, State.hostTurn, h.host, h.cmdReady]

theorem State.AgreeButAck.cmd : s.cmd = t.cmd := congrArg HostTurn.cmd h.hostTurn

variable (hr : s.input.rst = t.input.rst)
include hr

theorem State.AgreeButAck.rst : s.rst = t.rst := by
  rw [State.rst, State.rst, hr, h.hostTurn]

theorem State.AgreeButAck.accepts : s.accepts = t.accepts := by
  rw [State.accepts, State.accepts, State.cmdValid, State.cmdValid, h.rst hr, h.hostTurn, h.cmdReady]

theorem State.AgreeButAck.advance_host : s.advance.host = t.advance.host := by
  rw [State.advance_host, State.advance_host, h.accepts hr, h.hostTurn]

theorem State.AgreeButAck.framerEdge_withoutAck :
    (s.framerEdge s.framer).withoutAck = (t.framerEdge t.framer).withoutAck := by
  unfold State.framerEdge
  rw [h.rst hr, h.accepts hr, h.cmd, h.build]
  split
  · rfl
  · split
    · rw [acceptEdge_withoutAck, h.framer, ← acceptEdge_withoutAck]
    · rw [phaseEdge_withoutAck _ _ t.dioIn, h.framer, ← phaseEdge_withoutAck]

theorem State.AgreeButAck.framerEdge_of_absent (ha : s.build.ackSample = .absent) : s.framerEdge = t.framerEdge := by
  unfold State.framerEdge
  rw [h.rst hr, h.accepts hr, h.cmd, phaseEdge_dioIn_of_absent _ _ t.dioIn ha, h.build]

theorem State.AgreeButAck.step :
    (s.advance.onFramer s.framerEdge).AgreeButAck (t.advance.onFramer t.framerEdge) :=
  ⟨h.build, h.advance_host hr, h.framerEdge_withoutAck hr⟩

end

theorem run_agreeButAck (k : Nat) {s t : State} (h : s.AgreeButAck t)
    (hr : ∀ j < k, (s.inputAt j).rst = (t.inputAt j).rst) :
    ∃ s' t', run k s = .next s' ∧ run k t = .next t' ∧ s'.AgreeButAck t' ∧
      (s.build.ackSample = .absent → s.framer = t.framer → s'.framer = t'.framer) := by
  induction k generalizing s t with
  | zero => exact ⟨s, t, rfl, rfl, h, fun _ hf => hf⟩
  | succ k ih =>
    have hr0 : s.input.rst = t.input.rst := hr 0 k.succ_pos
    have hrest : ∀ j < k, ((s.advance.onFramer s.framerEdge).inputAt j).rst =
        ((t.advance.onFramer t.framerEdge).inputAt j).rst := fun j hj => by
      rw [step_inputAt (step_eq s), step_inputAt (step_eq t)]; exact hr (j + 1) (Nat.succ_lt_succ hj)
    obtain ⟨s', t', hs, ht, hagree, hsame⟩ := ih (h.step hr0) hrest
    refine ⟨s', t', (run_succ k s _ (step_eq s)).trans hs, (run_succ k t _ (step_eq t)).trans ht, hagree,
      fun ha hf => hsame ha ?_⟩
    rw [State.onFramer_framer, State.onFramer_framer, State.advance_framer, State.advance_framer,
      h.framerEdge_of_absent hr0 ha, hf]

/-- Settles O23, by induction on the number of edges: one edge keeps the agreement. -/
theorem ackSampleIsObserveOnly : Obligations.AckSampleIsObserveOnly := by
  intro k s t hb hh hf hr
  obtain ⟨s', t', hs, ht, hagree, hsame⟩ := run_agreeButAck k ⟨hb, hh, hf⟩ hr
  exact ⟨s', t', hs, ht, hagree.host, hagree.framer, hsame⟩

end Sys2Proof.Machine
end

section
/-! The outputs: the two lines as wired-AND (10_state.md R21 to R23), `cmd_ready` (R32) and `status` (R33). -/

namespace Sys2Proof.Machine

theorem State.clkLine_eq_false_iff (s : State) :
    s.clkLine = false ↔ s.framer.clkOe = true ∨ s.input.extClkPull = true := by
  rw [State.clkLine, Bool.not_eq_false', Bool.or_eq_true]

theorem State.dioLine_eq_false_iff (s : State) :
    s.dioLine = false ↔ s.framer.dioOe = true ∨ s.input.chipDioPull = true := by
  rw [State.dioLine, Bool.not_eq_false', Bool.or_eq_true]

/-- A level that is low exactly when the line is pulled, as R22 writes it. -/
theorem level_eq_ite {level : Bool} {pulled : Prop} [Decidable pulled] (h : level = false ↔ pulled) :
    level = if pulled then false else true := by
  split
  · next hp => exact h.2 hp
  · next hp => exact Bool.eq_true_of_not_eq_false (mt h.1 hp)

/-- Settles O26: each line is low exactly when somebody pulls it, and the pads' value is 0. -/
theorem padsNeverDriveHigh : Obligations.PadsNeverDriveHigh := by
  intro s
  refine ⟨rfl, rfl, fun h => s.clkLine_eq_false_iff.2 (.inl h), fun h => s.dioLine_eq_false_iff.2 (.inl h),
    fun h => s.clkLine_eq_false_iff.2 (.inr h), fun h => s.dioLine_eq_false_iff.2 (.inr h), fun ho hp => ?_,
    fun ho hp => ?_⟩
  · simp only [State.clkLine, ho, hp, Bool.or_false, Bool.not_false]
  · simp only [State.dioLine, ho, hp, Bool.or_false, Bool.not_false]

/-- Settles O27: of the next edge's inputs a step reads `rst` and, through `dio_in`, `chip_dio_pull`, but never
`ext_clk_pull`; so the two steps are the same by definition. -/
theorem linesAreWiredAnd : Obligations.LinesAreWiredAnd :=
  ⟨fun s => ⟨level_eq_ite s.clkLine_eq_false_iff, level_eq_ite s.dioLine_eq_false_iff, rfl⟩,
    fun _ _ _ _ => rfl⟩

/-- Settles O36: `cmd_ready` is a function of `phase`. -/
theorem readyExactlyInIdle : Obligations.ReadyExactlyInIdle :=
  ⟨fun s => s.framer.cmdReady_iff, fun _ _ h => congrArg Framer.cmdReady h, fun _ => rfl⟩

theorem Framer.busy_eq (f : Framer) : f.busy = decide (f.phase ≠ .idle) := by
  by_cases h : f.phase = .idle <;> simp [Framer.busy, Framer.cmdReady, h]

/-- Five bits in a row, read back one by one. -/
theorem statusWord_bits : ∀ b4 b3 b2 b1 b0 : Bool,
    let w : StatusWord :=
      BitVec.ofBool b4 ++ BitVec.ofBool b3 ++ BitVec.ofBool b2 ++ BitVec.ofBool b1 ++ BitVec.ofBool b0
    w.getLsbD 0 = b0 ∧ w.getLsbD 1 = b1 ∧ w.getLsbD 2 = b2 ∧ w.getLsbD 3 = b3 ∧ w.getLsbD 4 = b4 := by
  decide

/-- The five fields of `status`, least significant first (R33). -/
theorem Framer.status_bits (f : Framer) (a : AckSample) :
    (f.status a).getLsbD 0 = f.busy ∧ (f.status a).getLsbD 1 = f.illegal ∧ (f.status a).getLsbD 2 = f.seqerr ∧
    (f.status a).getLsbD 3 = ackBit a f.ackValid ∧ (f.status a).getLsbD 4 = ackBit a f.ackLevel :=
  statusWord_bits (ackBit a f.ackLevel) (ackBit a f.ackValid) f.seqerr f.illegal f.busy

theorem Framer.status_reset (a : AckSample) : Framer.reset.status a = 0b00000#5 := by
  cases a <;> decide

/-- Settles O37, bit by bit, from the fields of `status`. -/
theorem statusShowsTheRegisters : Obligations.StatusShowsTheRegisters := by
  refine ⟨fun s => ?_, Framer.status_reset _⟩
  obtain ⟨hbusy, hillegal, hseqerr, hvalid, hlevel⟩ := s.framer.status_bits s.build.ackSample
  exact ⟨hbusy.trans s.framer.busy_eq, hillegal, hseqerr,
    fun ha => ⟨hvalid.trans (by rw [ha]; rfl), hlevel.trans (by rw [ha]; rfl)⟩,
    fun ha => ⟨hvalid.trans (by rw [ha]; rfl), hlevel.trans (by rw [ha]; rfl)⟩⟩

end Sys2Proof.Machine
end

section
/-! What a command in progress shows on a free bus, as a relation between framers: `n` edges lead from one to the next and
put these events on the lines. A phase is one such stretch, a data bit three of them, a WRITE its eight bits and the ack
cycle (42_byte-write.md R110, R113, R114; the order of the bits and their polarity, 20_memory.md R52, R53). -/

namespace Sys2Proof.Machine

/-! ### One bit in the registers -/

/-- Settles O24: it is the action of BIT_LOW_W, taken because the Wait has run out. -/
theorem bitIsPlacedInverted : Obligations.BitIsPlacedInverted := by
  intro s hp hz hr
  have hbusy : s.framer.phase ≠ .idle := by rw [hp]; decide
  refine ⟨_, step_of_busy s hbusy ((s.rst_of_busy hbusy).symm.trans hr), ?_⟩
  rw [State.onFramer_framer, State.advance_framer, phaseEdge_eq_action _ _ _ fun _ => hz, hp]
  rfl

/-! ### Runs and what they show -/

theorem run_succ_cases {k : Nat} {s t : State} (h : run (k + 1) s = .next t) :
    ∃ u, step s = .next u ∧ run k u = .next t :=
  ⟨_, step_eq s, (run_succ k s _ (step_eq s)).symm.trans h⟩

theorem run_build {k : Nat} {s t : State} (h : run k s = .next t) : t.build = s.build := by
  induction k generalizing s with
  | zero => cases h; rfl
  | succ k ih =>
    obtain ⟨u, hu, ht⟩ := run_succ_cases h
    exact (ih ht).trans (step_build hu)

theorem run_inputAt {k : Nat} {s t : State} (h : run k s = .next t) (j : Nat) : t.inputAt j = s.inputAt (j + k) := by
  induction k generalizing s with
  | zero => cases h; rfl
  | succ k ih =>
    obtain ⟨u, hu, ht⟩ := run_succ_cases h
    rw [ih ht, step_inputAt hu, Nat.add_assoc]

/-- A bus that is free for a run and longer is free for the rest after the run. -/
theorem State.busFreeFor_after_run {j k : Nat} {s t : State} (hs : s.busFreeFor (j + k)) (h : run j s = .next t) :
    t.busFreeFor k := fun i hi => (run_inputAt h i).trans (hs (i + j) (by omega))

theorem busTrace_succ (k : Nat) {s t : State} (h : step s = .next t) :
    busTrace (k + 1) s = (busEvent s.lines t.lines).toList ++ busTrace k t := by
  simp only [busTrace, h]

theorem busTrace_add (j k : Nat) {s t : State} (h : run j s = .next t) :
    busTrace (j + k) s = busTrace j s ++ busTrace k t := by
  induction j generalizing s with
  | zero => cases h; rw [Nat.zero_add]; rfl
  | succ j ih =>
    obtain ⟨u, hu, ht⟩ := run_succ_cases h
    rw [Nat.add_right_comm, busTrace_succ _ hu, busTrace_succ _ hu, ih ht, List.append_assoc]

/-! ### Events -/

/-- While CLK is low after an edge, nothing can be seen at that edge. -/
theorem busEvent_of_clk_low (before : Lines) {after : Lines} (h : after.clk = false) : busEvent before after = none := by
  cases hb : before.clk <;> simp only [busEvent, hb, h]

theorem busEvent_of_clk_rise {before after : Lines} (hb : before.clk = false) (ha : after.clk = true) :
    busEvent before after = some (.clockRise after.dio) := by
  simp only [busEvent, hb, ha]

@[simp] theorem busEvent_self (l : Lines) : busEvent l l = none := by
  obtain ⟨clk, dio⟩ := l
  cases clk <;> cases dio <;> rfl

/-- The lines when the framer alone pulls them. -/
def Framer.freeLines (f : Framer) : Lines := { clk := !f.clkOe, dio := !f.dioOe }

theorem State.lines_of_busFree {s : State} {n : Nat} (h : s.busFreeFor (n + 1)) : s.lines = s.framer.freeLines := by
  have h0 : s.input = _ := h 0 n.succ_pos
  simp [State.lines, State.clkLine, State.dioLine, h0, Framer.freeLines]

/-! ### Stretches of a command -/

/-- With no other agent pulling and no reset, `n` edges lead from the framer `f` to `g` and show `es` on the bus, whatever
the host does meanwhile. -/
def Framer.Sends (b : Build) (n : Nat) (es : List BusEvent) (f g : Framer) : Prop :=
  ∀ s : State, s.build = b → s.framer = f → s.busFreeFor (n + 1) →
    ∃ t, run n s = .next t ∧ t.framer = g ∧ busTrace n s = es

section
variable {b : Build} {f g h : Framer}

theorem Framer.Sends.trans {n m : Nat} {es es' : List BusEvent} (h₁ : f.Sends b n es g) (h₂ : g.Sends b m es' h) :
    f.Sends b (n + m) (es ++ es') h := by
  intro s hb hf hfree
  obtain ⟨t, hst, hg, hes⟩ := h₁ s hb hf fun j hj => hfree j (by omega)
  obtain ⟨u, htu, hh, hes'⟩ := h₂ t ((run_build hst).trans hb) hg (State.busFreeFor_after_run hfree hst)
  exact ⟨u, (run_add n m s t hst).trans htu, hh, by rw [busTrace_add n m hst, hes, hes']⟩

theorem Framer.Sends.edge (hbusy : f.phase ≠ .idle) :
    f.Sends b 1 (busEvent f.freeLines (phaseEdge b (!f.dioOe) f).freeLines).toList (phaseEdge b (!f.dioOe) f) := by
  rintro s rfl rfl hfree
  have hin : s.inputAt 0 = _ := hfree 0 (by decide)
  have hdio : s.dioIn = !s.framer.dioOe := congrArg Lines.dio (State.lines_of_busFree hfree)
  have hstep := step_of_busy s hbusy (by rw [hin])
  have hrun := run_succ 0 s _ hstep
  rw [hdio] at hstep hrun
  have hnext := State.lines_of_busFree (State.busFreeFor_after_run (j := 1) (k := 1) hfree hrun)
  refine ⟨_, hrun, rfl, ?_⟩
  rw [busTrace_succ 0 hstep, State.lines_of_busFree hfree, hnext]
  exact List.append_nil _

/-- A waiting phase: its Wait shows nothing, and the edge that ends it takes the phase's action. -/
theorem Framer.Sends.wait (hw : f.phase.waits) :
    f.Sends b (f.wcnt + 1) (busEvent f.freeLines (f.phase.action b (!f.dioOe) { f with wcnt := 0 }).freeLines).toList
      (f.phase.action b (!f.dioOe) { f with wcnt := 0 }) := by
  induction hn : f.wcnt generalizing f with
  | zero =>
    have hf : { f with wcnt := 0 } = f := by rw [← hn]
    rw [hf, ← phaseEdge_eq_action b _ f fun _ => hn]
    exact .edge hw.1
  | succ n ih =>
    have hone := Framer.Sends.edge (b := b) hw.1
    have hcount := phaseEdge_counts_down b (!f.dioOe) f (by omega) hw.1 hw.2
    have hquiet : busEvent f.freeLines ({ f with wcnt := n } : Framer).freeLines = none := busEvent_self _
    rw [hcount, hn, Nat.add_sub_cancel, hquiet] at hone
    rw [Nat.add_comm]
    exact hone.trans (ih (f := { f with wcnt := n }) hw rfl)

variable {p : Phase} (hp : f.phase = p) (hw : p.waits) (hU : f.wcnt + 1 = b.U)
  (hg : p.action b (!f.dioOe) { f with wcnt := 0 } = g)
include hp hw hU hg

/-- A waiting phase that ends with CLK driven shows nothing. -/
theorem Framer.Sends.wait_quiet (hclk : g.clkOe = true) : f.Sends b b.U [] g := by
  subst hp
  have h := Framer.Sends.wait (b := b) hw
  rwa [hg, hU, busEvent_of_clk_low _ (by simp [Framer.freeLines, hclk])] at h

/-- A waiting phase that ends by releasing CLK shows the level of DIO at the rise. -/
theorem Framer.Sends.wait_rise (hf : f.clkOe = true) (hclk : g.clkOe = false) :
    f.Sends b b.U [.clockRise (!g.dioOe)] g := by
  subst hp
  have h := Framer.Sends.wait (b := b) hw
  rwa [hg, hU, busEvent_of_clk_rise (by simp [Framer.freeLines, hf]) (by simp [Framer.freeLines, hclk])] at h

end

/-! ### WRITE -/

/-- The framer of a WRITE once the lowest bit of `sr` is on DIO, shifted out and counted, and CLK is driven again. -/
def Framer.bitSent (U : Nat) (f : Framer) : Framer :=
  { f with
    clkOe := true, dioOe := !f.sr.getLsbD 0, sr := f.sr >>> 1, bitcnt := f.bitcnt + 1#4, wcnt := U - 1
    phase := if f.bitcnt + 1#4 = 8#4 then .ackLowW else .bitLowW }

/-- The framer of a WRITE once bit `n` of `sr`, its last one, is sent and the ack cycle has begun. -/
def Framer.bitsSent (U n : Nat) (f : Framer) : Framer :=
  { f with
    clkOe := true, dioOe := !f.sr.getLsbD n, sr := f.sr >>> (n + 1), bitcnt := 8#4, wcnt := U - 1, phase := .ackLowW }

/-- The framer after the ack cycle, with its sample where the build has one; nobody else pulls DIO. -/
def Framer.ackDone (b : Build) (f : Framer) : Framer :=
  { f.sampleAck b.ackSample (!f.dioOe) with clkOe := true, bitcnt := 0#4, phase := .idle, wcnt := 0 }

theorem Framer.bitSent_eq_bitsSent (U : Nat) {f : Framer} (h : f.bitcnt + 1#4 = 8#4) :
    f.bitSent U = f.bitsSent U 0 := by
  simp only [Framer.bitSent, Framer.bitsSent, h, if_true]

theorem Framer.bitsSent_bitSent (U n : Nat) (f : Framer) : (f.bitSent U).bitsSent U n = f.bitsSent U (n + 1) := by
  simp [Framer.bitSent, Framer.bitsSent, ← BitVec.shiftRight_add, Nat.add_comm]

/-- The bit count does not wrap (R29). -/
theorem bitcnt_add_one_toNat {c : BitVec 4} (h : c.toNat < 8) : (c + 1#4).toNat = c.toNat + 1 :=
  BitVec.toNat_add_of_lt (by simp only [BitVec.toNat_ofNat]; omega)

section
variable {b : Build} {f : Framer}

/-- BIT_DATA: CLK is released on the bit placed at the edge before, so the rise shows it. -/
theorem Framer.Sends.bitData (hp : f.phase = .bitData) (hclk : f.clkOe = true) :
    f.Sends b 1 [.clockRise (!f.dioOe)] ((f.release .clk).countBit.startWait b.U .bitHighW) := by
  have h := Framer.Sends.edge (b := b) (f := f) (by rw [hp]; decide)
  have hedge : phaseEdge b (!f.dioOe) f = (f.release .clk).countBit.startWait b.U .bitHighW := by
    rw [phaseEdge_eq_action _ _ _ fun hw => absurd hp hw.2, hp]
    rfl
  rwa [hedge, busEvent_of_clk_rise (by simp [Framer.freeLines, hclk]) rfl] at h

variable (hU : f.wcnt + 1 = b.U) (hclk : f.clkOe = true)
include hU hclk

/-- One data bit: placed while CLK is driven, then shown at one CLK rise; a bit of 1 is a released line (R53). -/
theorem Framer.Sends.bit (hp : f.phase = .bitLowW) :
    f.Sends b (2 * b.U + 1) [.clockRise (f.sr.getLsbD 0)] (f.bitSent b.U) := by
  have hplace : f.Sends b b.U [] (({ f with wcnt := 0 } : Framer).placeBit.enter .bitData) :=
    .wait_quiet hp (by decide) hU rfl hclk
  have hshow := Framer.Sends.bitData (b := b) (f := ({ f with wcnt := 0 } : Framer).placeBit.enter .bitData) rfl hclk
  have hhold := hshow.trans <| .wait_quiet (p := .bitHighW) (g := f.bitSent b.U) rfl (by decide)
    (Nat.sub_add_cancel (by omega)) rfl rfl
  have h := hplace.trans hhold
  rwa [show b.U + (1 + b.U) = 2 * b.U + 1 by omega, Framer.enter_dioOe, Framer.placeBit_dioOe, Bool.not_not] at h

/-- The data bits left in `sr`, least significant first (R52). -/
theorem Framer.Sends.bits (n : Nat) (hp : f.phase = .bitLowW) (hn : f.bitcnt.toNat + (n + 1) = 8) :
    f.Sends b ((n + 1) * (2 * b.U + 1)) ((List.range (n + 1)).map fun i => .clockRise (f.sr.getLsbD i))
      (f.bitsSent b.U n) := by
  induction n generalizing f with
  | zero =>
    have hcount := bitcnt_add_one_toNat (c := f.bitcnt) (by omega)
    have hlast : f.bitcnt + 1#4 = 8#4 := BitVec.eq_of_toNat_eq (hcount.trans hn)
    have h := Framer.Sends.bit hU hclk hp
    rwa [Framer.bitSent_eq_bitsSent _ hlast, ← Nat.one_mul (2 * b.U + 1)] at h
  | succ n ih =>
    have hcount := bitcnt_add_one_toNat (c := f.bitcnt) (by omega)
    have hmore : f.bitcnt + 1#4 ≠ 8#4 := fun h8 =>
      absurd (hcount.symm.trans (congrArg BitVec.toNat h8)) (by simp only [BitVec.toNat_ofNat]; omega)
    have hrest := ih (f := f.bitSent b.U) (Nat.sub_add_cancel (by omega)) rfl (if_neg hmore)
      (by simp only [Framer.bitSent, hcount]; omega)
    have h := (Framer.Sends.bit hU hclk hp).trans hrest
    rw [Framer.bitsSent_bitSent, Nat.add_comm, ← Nat.succ_mul] at h
    -- the bits of `sr >>> 1` are those of `sr` from bit 1 on
    rw [List.range_succ_eq_map, List.map_cons, List.map_map]
    simpa [Framer.bitSent, Function.comp_def, Nat.add_comm] using h

/-- The ack cycle: one more CLK rise, with DIO as the last bit left it (R114). -/
theorem Framer.Sends.ack (hp : f.phase = .ackLowW) :
    f.Sends b (3 * b.U) [.clockRise (!f.dioOe)] (f.ackDone b) := by
  have hunit : b.U - 1 + 1 = b.U := Nat.sub_add_cancel (by omega)
  have hrise : f.Sends b b.U [.clockRise (!f.dioOe)] ((f.release .clk).startWait b.U .ackHighW) :=
    .wait_rise hp (by decide) hU rfl hclk rfl
  have hfall : ((f.release .clk).startWait b.U .ackHighW).Sends b b.U []
      (((f.sampleAck b.ackSample (!f.dioOe)).drive .clk).startWait b.U .ackEndW) :=
    .wait_quiet (p := .ackHighW) rfl (by decide) hunit (by simp only [Phase.action]; cases b.ackSample <;> rfl) rfl
  have hend : (((f.sampleAck b.ackSample (!f.dioOe)).drive .clk).startWait b.U .ackEndW).Sends b b.U [] (f.ackDone b) :=
    .wait_quiet (p := .ackEndW) rfl (by decide) hunit rfl rfl
  have h := hrise.trans (hfall.trans hend)
  rwa [show b.U + (b.U + b.U) = 3 * b.U by omega] at h

end

/-- R110: from its accepting edge on, a WRITE shows exactly its byte. -/
theorem Framer.Sends.write {b : Build} (hU : 1 ≤ b.U) (byte : Byte) (f : Framer) :
    (acceptEdge b.U (.write byte) f).Sends b (19 * b.U + 8) (byteEvents byte)
      (((acceptEdge b.U (.write byte) f).bitsSent b.U 7).ackDone b) := by
  have hunit : b.U - 1 + 1 = b.U := Nat.sub_add_cancel hU
  have hbits := Framer.Sends.bits (f := acceptEdge b.U (.write byte) f) hunit rfl 7 rfl rfl
  have hack := Framer.Sends.ack (f := (acceptEdge b.U (.write byte) f).bitsSent b.U 7) hunit rfl rfl
  have hlast : ((acceptEdge b.U (.write byte) f).bitsSent b.U 7).dioOe = !byte.getLsbD 7 := rfl
  have h := hbits.trans hack
  rw [show (7 + 1) * (2 * b.U + 1) + 3 * b.U = 19 * b.U + 8 by omega, hlast, Bool.not_not] at h
  exact h

theorem step_of_acceptsCommand {s : State} {i : Instr} (h : s.acceptsCommand i) :
    step s = .next (s.advance.onFramer (acceptEdge s.build.U i)) := by
  obtain ⟨hacc, rfl⟩ := h
  have hrst : s.rst = false := ((State.accepts_iff s).1 hacc).1
  rw [step_eq, State.framerEdge, hrst, hacc]
  rfl

/-- Settles O31: the accepting edge only drives CLK low, and the stretch from it on is that of the byte. -/
theorem writeShowsItsBitsOnTheBus : Obligations.WriteShowsItsBitsOnTheBus := by
  intro s byte hcmd hU hfree
  have hstep := step_of_acceptsCommand hcmd
  have hrest := State.busFreeFor_after_run (k := 19 * s.build.U + 9) (fun j hj => hfree j (by omega))
    (run_succ 0 s _ hstep)
  obtain ⟨t, -, -, hes⟩ :=
    Framer.Sends.write hU byte s.framer (s.advance.onFramer (acceptEdge s.build.U (.write byte))) rfl rfl hrest
  have hlow : (s.advance.onFramer (acceptEdge s.build.U (.write byte))).clkLine = false :=
    (State.clkLine_eq_false_iff _).2 (.inl rfl)
  rw [busTrace_succ _ hstep, hes, busEvent_of_clk_low _ hlow]
  rfl

end Sys2Proof.Machine
end

section
/-! The codec of 30_encoding.md: the two fields of a word and the command of each `op`, the encoder and the assembler against
it, and what follows for streams of commands and for the step that is offered a word. -/

namespace Sys2Proof

/-! ### Fields of a word -/

/-- The data of `{op, data}` (R70), beside `Laws.OpField.commandWord_op`. -/
theorem commandWord_data (o : BitVec 2) (d : Byte) : dataField (commandWord o d) = d := by
  simp only [dataField, commandWord]
  ext i hi
  have h10 : i < 10 := by omega
  simp [hi, h10]

/-- The fields of a word do not overlap, so the word is their sum (R76). -/
theorem commandWord_eq_add (o : BitVec 2) (d : Byte) :
    commandWord o d = (o.setWidth 10 <<< 8) + d.setWidth 10 := by
  refine (BitVec.add_eq_or_of_and_eq_zero _ _ ?_).symm
  ext i hi
  by_cases h8 : i < 8
  · simp [h8]
  · simp [d.getLsbD_of_ge i (Nat.le_of_not_lt h8)]

/-! ### The command of each `op` (R71) -/

section
variable {w : CommandWord}

theorem decode_of_op_start (h : opField w = 0#2) : decode w = .start := by simp [decode, h]

theorem decode_of_op_stop (h : opField w = 1#2) : decode w = .stop := by simp [decode, h]

theorem decode_of_op_write (h : opField w = 2#2) : decode w = .write (dataField w) := by simp [decode, h]

theorem decode_of_op_reserved (h : opField w = 3#2) : decode w = .reserved (dataField w) := by simp [decode, h]

/-! ### The encoder (R76) -/

theorem encode_isSome (i : Instr) : (encode i).isSome = i.wf := by
  cases i with
  | start => exact Laws.OpField.start.2
  | stop => exact Laws.OpField.stop.2
  | write b => exact (Laws.OpField.write b).2
  | reserved d => exact (Laws.OpField.reserved d).2

theorem decode_encode {i : Instr} (h : encode i = some w) : decode w = i := by
  cases i with
  | start => cases h; exact decode_of_op_start (Laws.OpField.commandWord_op _ _)
  | stop => cases h; exact decode_of_op_stop (Laws.OpField.commandWord_op _ _)
  | write b =>
    cases h
    rw [decode_of_op_write (Laws.OpField.commandWord_op _ _), commandWord_data]
  | reserved d => cases h

/-- A START or STOP word the encoder gives has zero data: it decodes to the command that was encoded. -/
theorem dataField_of_encode {i : Instr} (h : encode i = some w) (hop : opField w = 0#2 ∨ opField w = 1#2) :
    dataField w = 0#8 := by
  have hi := decode_encode h
  rcases hop with hop | hop
  · rw [decode_of_op_start hop] at hi
    subst hi; cases h; exact commandWord_data _ _
  · rw [decode_of_op_stop hop] at hi
    subst hi; cases h; exact commandWord_data _ _

end

/-- Settles O1: the ten words are read off the map. -/
theorem decodesTheWordsOfTheSpec : Obligations.DecodesTheWordsOfTheSpec :=
  ⟨decode_of_op_start rfl, decode_of_op_stop rfl, decode_of_op_write rfl, decode_of_op_write rfl, decode_of_op_write rfl,
    decode_of_op_start rfl, decode_of_op_stop rfl, decode_of_op_reserved rfl, decode_of_op_reserved rfl,
    decode_of_op_reserved rfl⟩

/-- Settles O2 from the lemmas on the two sides of the codec. -/
theorem encodeAndDecodeAgree : Obligations.EncodeAndDecodeAgree :=
  ⟨rfl, rfl, fun b => congrArg some (commandWord_eq_add 2#2 b), fun _ => rfl,
    fun _ => ⟨decode_of_op_start, decode_of_op_stop, decode_of_op_write, decode_of_op_reserved⟩,
    fun _ _ => decode_encode, fun _ hop hdata _ h => hdata (dataField_of_encode h hop)⟩

/-! ### Streams of commands -/

theorem exists_mapM_encode_of_wf (p : List Instr) (hp : ∀ i ∈ p, i.wf = true) :
    ∃ ws, p.mapM encode = some ws := by
  induction p with
  | nil => exact ⟨[], rfl⟩
  | cons i p ih =>
    obtain ⟨hi, hp⟩ := List.forall_mem_cons.1 hp
    obtain ⟨w, hw⟩ := Option.isSome_iff_exists.1 ((encode_isSome i).trans hi)
    obtain ⟨ws, hws⟩ := ih hp
    exact ⟨w :: ws, by simp [List.mapM_cons, hw, hws]⟩

theorem map_decode_of_mapM_encode {p : List Instr} {ws : List CommandWord} (h : p.mapM encode = some ws) :
    ws.map decode = p := by
  induction p generalizing ws with
  | nil => cases h; rfl
  | cons i p ih =>
    rw [List.mapM_cons] at h
    obtain ⟨w, hw, h⟩ := Option.bind_eq_some_iff.1 h
    obtain ⟨vs, hvs, h⟩ := Option.bind_eq_some_iff.1 h
    cases h
    rw [List.map_cons, decode_encode hw, ih hvs]

/-- Settles O3: the words decode to every stream that has them, so there is only one. -/
theorem commandStreamsRoundTrip : Obligations.CommandStreamsRoundTrip := by
  intro p hp
  obtain ⟨ws, hws⟩ := exists_mapM_encode_of_wf p hp
  have hback := map_decode_of_mapM_encode hws
  exact ⟨ws, hws, hback, fun _ hq => (map_decode_of_mapM_encode hq).symm.trans hback⟩

end Sys2Proof

namespace Sys2Proof.Machine

/-! ### The step that is offered a word -/

/-- `clearNextReset` clears a listed reset, and past the list the environment asserts none (R22). -/
theorem State.offering_input_rst (s : State) (w : CommandWord) : (s.offering w).input.rst = false := by
  cases he : s.env <;> simp [State.input, State.inputAt, clearNextReset, he, freeInput]

theorem State.offering_hostTurn (s : State) (w : CommandWord) :
    (s.offering w).hostTurn = .offer w s.host (s.offering w).host :=
  HostAgent.turn_of_outbox _ _ w _ rfl

theorem State.offering_acceptsCommand (s : State) (w : CommandWord) : (s.offering w).acceptsCommand (decode w) := by
  have hturn := s.offering_hostTurn w
  refine ⟨(State.accepts_iff _).2 ⟨?_, congrArg HostTurn.cmdValid hturn, rfl⟩, ?_⟩
  · rw [State.rst, s.offering_input_rst w, hturn]; rfl
  · rw [State.cmd, hturn]; rfl

/-- Once the word is accepted nothing of it is left in the host or the environment. -/
theorem State.offering_advance (s : State) (w : CommandWord) :
    (s.offering w).advance =
      { s with framer := s.framer.enter .idle, env := (clearNextReset s.env).tail, edge := s.edge + 1 } := by
  rw [State.advance, if_pos (s.offering_acceptsCommand w).1, s.offering_hostTurn w]
  rfl

/-- What a step does with an offered word depends on the command it decodes to alone. -/
theorem step_offering_congr (s : State) {w w' : CommandWord} (h : decode w = decode w') :
    step (s.offering w) = step (s.offering w') := by
  rw [step_of_acceptsCommand (s.offering_acceptsCommand w), step_of_acceptsCommand (s.offering_acceptsCommand w'), h,
    s.offering_advance w, s.offering_advance w', State.offering_build, State.offering_build]

/-- Settles O4: a START or STOP word decodes by its `op` alone. -/
theorem dataBitsOfStartAndStopIgnored : Obligations.DataBitsOfStartAndStopIgnored := fun s d =>
  ⟨step_offering_congr s (decode_of_op_start (Laws.OpField.commandWord_op 0#2 d)),
    step_offering_congr s (decode_of_op_stop (Laws.OpField.commandWord_op 1#2 d))⟩

/-! ### The assembler (R75) -/

theorem assemble_of_not_wf {a : Asm} (h : a.wf = false) : assemble a = none := by simp [assemble, h]

theorem assemble_write {n : Nat} (h : n < 256) :
    assemble (.write n) = some [.issue (commandWord 2#2 (BitVec.ofNat 8 n))] := by
  simp [assemble, Asm.wf, h]

theorem assemble_word {n : Nat} (h : n < 1024) : assemble (.word n) = some [.issue (BitVec.ofNat 10 n)] := by
  simp [assemble, Asm.wf, h]

/-- Settles O5: an immediate that fits is kept whole by its field, and the others are not well formed. -/
theorem assemblerTakesExactlyTheImmediatesThatFit : Obligations.AssemblerTakesExactlyTheImmediatesThatFit := by
  refine ⟨rfl, rfl, fun n hn => ?_, fun n hn => ?_, fun n => assemble_word, fun n hn => ?_⟩
  · rw [assemble_write hn, commandWord_eq_add, BitVec.setWidth_ofNat_of_le_of_lt (w := 8) (by decide) hn]
    rfl
  · exact assemble_of_not_wf (decide_eq_false hn.not_gt)
  · exact assemble_of_not_wf (decide_eq_false hn.not_gt)

end Sys2Proof.Machine
end

section
/-! The command cycle (40_command-cycle.md): when an edge accepts a command and what it runs (R90, R93, R94), what an edge
that accepts none leaves alone (R93, R95), and how long a command takes (R92, R96). The duration is a count of the edges a
command in progress has left, which every edge takes one off, from any registers at all. -/

namespace Sys2Proof.Machine

/-! ### The edge that accepts a command -/

/-- Settles O7: a step is the framer's edge, and that is a function. -/
theorem stepNeverStops : Obligations.StepNeverStops := fun s => ⟨_, step_eq s⟩

theorem step_eq_exec_of_accepts {s : State} (h : s.accepts = true) : step s = exec (decode s.cmd) s.advance :=
  (step_of_acceptsCommand ⟨h, rfl⟩).trans (exec_eq_acceptEdge _ _).symm

theorem decode_of_decodeTableWord {n w : Nat} {i : Instr} (h : decodeTableWord n w = some i) :
    decode (BitVec.ofNat 10 w) = i := by
  by_cases hw : w < 1024
  · simpa [decodeTableWord, decodeNat, hw] using h
  · simp [decodeTableWord, decodeNat, hw] at h

/-- Settles O6: acceptance is R90's condition, and a table word is accepted because it is offered. -/
theorem stepRunsTheAcceptedCommand : Obligations.StepRunsTheAcceptedCommand := by
  refine ⟨fun s => ?_, fun s => step_eq_exec_of_accepts, fun s n w i hi => ?_⟩
  · rw [s.accepts_iff, ← s.framer.cmdReady_iff]; rfl
  · obtain ⟨hacc, hcmd⟩ := s.offering_acceptsCommand (BitVec.ofNat 10 w)
    rw [decode_of_decodeTableWord hi] at hcmd
    exact ⟨hcmd ▸ step_eq_exec_of_accepts hacc, by rw [State.withFetchWord, s.offering_advance]⟩

theorem acceptEdge_reserved (U : Nat) (d : Byte) (f : Framer) :
    acceptEdge U (.reserved d) f = { f with illegal := true } := by
  simp [acceptEdge, Framer.raise]

theorem step_of_accepts_reserved {d : Byte} {s : State} (h : s.acceptsCommand (.reserved d)) :
    ∃ t, step s = .next t ∧ t.framer = { s.framer with illegal := true } :=
  ⟨_, step_of_acceptsCommand h, acceptEdge_reserved s.build.U d s.framer⟩

theorem Framer.status_reset_illegal (a : AckSample) :
    ({ Framer.reset with illegal := true } : Framer).status a = 0b00010#5 := by
  cases a <;> decide

/-- Settles O14: a reserved word writes one flag, so the framer is as idle as it was; the example is such a word. -/
theorem reservedOnlyRaisesIllegal : Obligations.ReservedOnlyRaisesIllegal := by
  refine ⟨fun d s => ?_, fun d s h => ?_, ?_⟩
  · rw [exec_eq_acceptEdge, State.onFramer, acceptEdge_reserved]
  · obtain ⟨t, hstep, hf⟩ := step_of_accepts_reserved h
    have hidle : s.framer.phase = .idle := ((State.accepts_iff s).1 h.1).2.2
    exact ⟨t, hstep, hf, t.framer.cmdReady_iff.2 (by rw [hf]; exact hidle)⟩
  · have hword : decode 0x3A5#10 = .reserved 0xA5#8 := decode_of_op_reserved rfl
    obtain ⟨t, hstep, hf⟩ := step_of_accepts_reserved (hword ▸ State.reset.offering_acceptsCommand 0x3A5#10)
    refine ⟨t, hstep, ?_, by rw [hf]; rfl, by rw [hf]; rfl⟩
    rw [State.status, hf]
    exact Framer.status_reset_illegal _

/-! ### The edge that accepts none -/

/-- Settles O56: nothing moves but the host and the environment. -/
theorem idleEdgeHoldsEveryRegister : Obligations.IdleEdgeHoldsEveryRegister := fun s hi hr ha =>
  ⟨_, step_of_quiet s hi hr ha, s.advance_framer⟩

/-- The edge of a busy framer is settled by its registers, its build and the environment: no host enters into it. -/
theorem framerEdge_congr_of_busy {s t : State} (hf : s.framer = t.framer) (hb : s.build = t.build)
    (hi : s.input = t.input) (hbusy : s.framer.phase ≠ .idle) : s.framerEdge = t.framerEdge := by
  have hbusy' : t.framer.phase ≠ .idle := hf ▸ hbusy
  have hrst : s.rst = t.rst := by
    rw [s.rst_of_busy hbusy, t.rst_of_busy hbusy']; exact congrArg EdgeInput.rst hi
  have hdio : s.dioIn = t.dioIn := by rw [State.dioIn, State.dioIn, State.dioLine, State.dioLine, hf, hi]
  rw [State.framerEdge, State.framerEdge, s.not_accepts_of_busy hbusy, t.not_accepts_of_busy hbusy', hrst, hb, hdio]
  rfl

/-- Settles O8: a busy framer's edge is the same beside every host, and acceptance asks for `rst = 0`. -/
theorem busyFramerIgnoresTheCommandPort : Obligations.BusyFramerIgnoresTheCommandPort := by
  refine ⟨fun s t hf hb hi hbusy => ⟨s.not_accepts_of_busy hbusy, _, _, step_eq s, step_eq t, ?_⟩, fun s hr => ?_⟩
  · rw [State.onFramer_framer, State.onFramer_framer, State.advance_framer, State.advance_framer,
      framerEdge_congr_of_busy hf hb hi hbusy, hf]
  · simp [State.accepts, hr]

/-! ### The edges a command has left -/

/-- Settles O17: the run of a Wait, cycle by cycle. -/
theorem waitOnlyCountsDown : Obligations.WaitOnlyCountsDown := by
  intro s hi hd hr k hk
  obtain ⟨t, hrun, hf, -⟩ := run_wait s ⟨hi, hd⟩ hr k hk
  exact ⟨t, hrun, hf⟩

/-- The edges from the end of a phase's Wait to IDLE, the first of them the phase's action, with `c` bits counted. The
bits to come are counted as `bitcnt` is, modulo 16: a WRITE goes on until `bitcnt` is 8. -/
def Phase.edgesAfterWait (U : Nat) (c : BitVec 4) : Phase → Nat
  | .idle => 0
  | .startW => 1
  | .stopW0 => 1 + 2 * U
  | .stopW1 => 1 + U
  | .stopW2 => 1
  | .bitLowW => 2 + U + (7#4 - c).toNat * (2 * U + 1) + 3 * U
  | .bitData => 1 + U + (7#4 - c).toNat * (2 * U + 1) + 3 * U
  | .bitHighW => 1 + (8#4 - c).toNat * (2 * U + 1) + 3 * U
  | .ackLowW => 1 + 2 * U
  | .ackHighW => 1 + U
  | .ackEndW => 1

/-- The edges a command in progress has left until `phase` is IDLE: its Wait's, and those after it. -/
def Framer.edgesLeft (U : Nat) (f : Framer) : Nat :=
  (if f.phase.waits then f.wcnt else 0) + f.phase.edgesAfterWait U f.bitcnt

theorem Framer.edgesLeft_eq_zero_iff (U : Nat) (f : Framer) : f.edgesLeft U = 0 ↔ f.phase = .idle := by
  cases hp : f.phase <;> simp [Framer.edgesLeft, Phase.edgesAfterWait, hp]

/-- Where no Wait runs, the edges left are those after it. -/
theorem Framer.edgesLeft_of_wait_over (U : Nat) {f : Framer} (hz : f.phase.waits → f.wcnt = 0) :
    f.edgesLeft U = f.phase.edgesAfterWait U f.bitcnt := by
  have hwait : (if f.phase.waits then f.wcnt else 0) = 0 := ite_eq_right_iff.2 hz
  rw [Framer.edgesLeft, hwait, Nat.zero_add]

/-- With the edge that began it, a new Wait takes `U` edges (R92). -/
theorem Framer.edgesLeft_startWait {U : Nat} (hU : 1 ≤ U) (f : Framer) {p : Phase} (hw : p.waits) :
    (f.startWait U p).edgesLeft U + 1 = U + p.edgesAfterWait U f.bitcnt := by
  have hwait : (f.startWait U p).edgesLeft U = U - 1 + p.edgesAfterWait U f.bitcnt :=
    congrArg (· + p.edgesAfterWait U f.bitcnt) (if_pos hw)
  omega

/-- Counted from the edge that accepts it, a command has its duration left (R96). -/
theorem acceptEdge_edgesLeft {U : Nat} (hU : 1 ≤ U) (i : Instr) {f : Framer} (hp : f.phase = .idle) :
    (acceptEdge U i f).edgesLeft U = commandEdges U i := by
  cases i with
  | reserved d => exact (Framer.edgesLeft_eq_zero_iff U _).2 hp
  | start => exact Nat.succ_injective (Framer.edgesLeft_startWait hU _ (by decide))
  | stop | write b =>
    refine Nat.succ_injective ((Framer.edgesLeft_startWait hU _ (by decide)).trans ?_)
    simp only [Phase.edgesAfterWait, commandEdges, Framer.drive_clk_bitcnt, Framer.loadByte_bitcnt, BitVec.sub_zero,
      BitVec.toNat_ofNat]
    omega

/-- While `bitcnt` is not 8, one of the bits to come is the next. -/
theorem bitsLeft_eq_add_one : ∀ {c : BitVec 4}, c ≠ 8#4 → (8#4 - c).toNat = (7#4 - c).toNat + 1 := by
  decide

/-- A bit counted is one bit less to come. -/
theorem bitsLeft_add_one : ∀ c : BitVec 4, 8#4 - (c + 1#4) = 7#4 - c := by decide

/-- BIT_HIGH_W begins another bit or the ack cycle; in either case it has one edge less left. -/
theorem bitHighW_end_edgesLeft {U : Nat} (hU : 1 ≤ U) (f : Framer) :
    ((f.drive .clk).startWait U (if f.bitcnt = 8#4 then .ackLowW else .bitLowW)).edgesLeft U + 1 =
      Phase.edgesAfterWait U f.bitcnt .bitHighW := by
  by_cases h8 : f.bitcnt = 8#4
  · rw [if_pos h8, Framer.edgesLeft_startWait hU _ (by decide)]
    simp only [Phase.edgesAfterWait, h8, BitVec.sub_self, BitVec.toNat_ofNat]
    omega
  · rw [if_neg h8, Framer.edgesLeft_startWait hU _ (by decide)]
    simp only [Phase.edgesAfterWait, Framer.drive_clk_bitcnt, bitsLeft_eq_add_one h8, Nat.add_mul]
    omega

/-- A phase's action takes one off the edges left. -/
theorem Phase.action_edgesLeft (b : Build) (d : Bool) {f : Framer} (hU : 1 ≤ b.U) (hbusy : f.phase ≠ .idle)
    (hz : f.phase.waits → f.wcnt = 0) :
    (f.phase.action b d f).edgesLeft b.U + 1 = f.edgesLeft b.U := by
  rw [Framer.edgesLeft_of_wait_over _ hz]
  cases hp : f.phase with
  | idle => exact absurd hp hbusy
  -- the command is over
  | startW | stopW2 | ackEndW => exact congrArg (· + 1) ((Framer.edgesLeft_eq_zero_iff _ _).2 rfl)
  -- the next phase begins with a Wait
  | stopW0 | stopW1 | ackLowW | ackHighW =>
    refine (Framer.edgesLeft_startWait hU _ (by decide)).trans ?_
    simp only [Phase.edgesAfterWait]
    omega
  | bitData =>
    refine (Framer.edgesLeft_startWait hU _ (by decide)).trans ?_
    simp only [Phase.edgesAfterWait, Framer.countBit_bitcnt, Framer.release_clk_bitcnt, bitsLeft_add_one]
    omega
  | bitHighW => exact bitHighW_end_edgesLeft hU f
  -- BIT_DATA has no Wait
  | bitLowW =>
    have hnext : (f.placeBit.enter .bitData).edgesLeft b.U = Phase.edgesAfterWait b.U f.bitcnt .bitData :=
      Framer.edgesLeft_of_wait_over _ fun hw => absurd rfl hw.2
    rw [Phase.action, hnext]
    simp only [Phase.edgesAfterWait]
    omega

/-- Every edge of a command in progress takes one off the edges it has left (R93). -/
theorem phaseEdge_edgesLeft (b : Build) (d : Bool) {f : Framer} (hU : 1 ≤ b.U) (hbusy : f.phase ≠ .idle) :
    (phaseEdge b d f).edgesLeft b.U + 1 = f.edgesLeft b.U := by
  rcases phaseEdge_cases b d f with ⟨hw, hwcnt, he⟩ | ⟨hz, he⟩
  · rw [he]
    simp only [Framer.edgesLeft, if_pos hw]
    omega
  · rw [he]
    exact Phase.action_edgesLeft b d hU hbusy hz

/-- With no reset, `k` edges take `k` off the edges a command has left. -/
theorem run_edgesLeft {s : State} {n : Nat} (hU : 1 ≤ s.build.U) (hn : s.framer.edgesLeft s.build.U = n)
    (hr : s.noResetFor n) : ∀ k ≤ n, ∃ t, run k s = .next t ∧ t.framer.edgesLeft s.build.U = n - k
  | 0, _ => ⟨s, rfl, hn⟩
  | k + 1, hk => by
    obtain ⟨t, hrun, hleft⟩ := run_edgesLeft hU hn hr k (by omega)
    have hbusy : t.framer.phase ≠ .idle := fun hi => by
      rw [(Framer.edgesLeft_eq_zero_iff s.build.U _).2 hi] at hleft; omega
    have hstep := step_of_busy t hbusy (by rw [run_inputAt hrun, Nat.zero_add]; exact hr k hk)
    rw [run_build hrun] at hstep
    have hone := phaseEdge_edgesLeft s.build t.dioIn hU hbusy
    exact ⟨_, run_succ_of_run hrun hstep, show (phaseEdge s.build t.dioIn t.framer).edgesLeft s.build.U = _ by omega⟩

theorem State.cmdReady_eq_decide_edgesLeft (U : Nat) (s : State) : s.cmdReady = decide (s.framer.edgesLeft U = 0) := by
  rw [Bool.eq_iff_iff, decide_eq_true_iff, Framer.edgesLeft_eq_zero_iff]
  exact s.framer.cmdReady_iff

/-- Settles O18: the accepting edge leaves the command its duration, every later edge takes one off it, and the framer is
ready when none is left. -/
theorem commandsTakeTheirDurations : Obligations.CommandsTakeTheirDurations := by
  intro s i hcmd hU hr k hk
  have hidle : s.framer.phase = .idle := ((State.accepts_iff s).1 hcmd.1).2.2
  have hstep := step_of_acceptsCommand hcmd
  obtain ⟨t, hrun, hleft⟩ := run_edgesLeft (s := s.advance.onFramer (acceptEdge s.build.U i)) hU
    (acceptEdge_edgesLeft hU i hidle) (fun j hj => by rw [step_inputAt hstep]; exact hr _ (Nat.succ_lt_succ hj)) k hk
  refine ⟨t, (run_succ k s _ hstep).trans hrun, ?_⟩
  rw [t.cmdReady_eq_decide_edgesLeft s.build.U]
  replace hleft : t.framer.edgesLeft s.build.U = commandEdges s.build.U i - k := hleft
  exact decide_eq_decide.2 (by omega)

end Sys2Proof.Machine
end

section
/-! The traffic of a host that makes only Display Session calls (41_framing.md R100; 45_host-sequences.md R132, R137, R149):
the words of a call are whole frames, the host's turn keeps what is left of them framed, and the framer is closed again
whenever the words say so; so START never finds a line driven, and no flag rises. -/

namespace Sys2Proof.Machine

/-! ### Framed words -/

/-- What the first of framed words may be, and what it leaves: closed after a STOP, open after any other word. -/
theorem framed_cons_iff (c : Bool) (w : CommandWord) (ws : List CommandWord) :
    framed c (w :: ws) = true ↔ (decode w = .start → c = true) ∧ (∀ d, decode w ≠ .reserved d) ∧
      framed (decide (decode w = .stop)) ws = true := by
  cases hd : decode w <;> simp [framed, hd]

/-- A closed beginning takes whatever an open one does. -/
theorem framed_mono {c c' : Bool} (hc : c = true → c' = true) {ws : List CommandWord} (h : framed c ws = true) :
    framed c' ws = true := by
  cases ws with
  | nil => exact hc h
  | cons w ws =>
    obtain ⟨hstart, hrest⟩ := (framed_cons_iff c w ws).1 h
    exact (framed_cons_iff c' w ws).2 ⟨fun hw => hc (hstart hw), hrest⟩

theorem framed_cons_start {w : CommandWord} {ws : List CommandWord} (hw : decode w = .start)
    (h : framed false ws = true) : framed true (w :: ws) = true := by
  simp [framed_cons_iff, hw, h]

theorem framed_cons_stop {c : Bool} {w : CommandWord} {ws : List CommandWord} (hw : decode w = .stop)
    (h : framed true ws = true) : framed c (w :: ws) = true := by
  simp [framed_cons_iff, hw, h]

theorem framed_cons_write {c : Bool} {w : CommandWord} {ws : List CommandWord} {b : Byte} (hw : decode w = .write b)
    (h : framed false ws = true) : framed c (w :: ws) = true := by
  simp [framed_cons_iff, hw, h]

/-- The words of a FRAME are framed, and leave what follows a closed beginning (R132). -/
theorem framed_frameWords_append (bytes : List Byte) {rest : List CommandWord} (h : framed true rest = true) :
    framed true (frameWords bytes ++ rest) = true := by
  have hstop : ∀ c, framed c (commandWord 0b01#2 0x00#8 :: rest) = true := fun _ =>
    framed_cons_stop (decode_of_op_stop (Laws.OpField.commandWord_op _ _)) h
  have hbytes : framed false (bytes.map (commandWord 0b10#2) ++ commandWord 0b01#2 0x00#8 :: rest) = true := by
    induction bytes with
    | nil => exact hstop false
    | cons b bytes ih => exact framed_cons_write (decode_of_op_write (Laws.OpField.commandWord_op _ _)) ih
  rw [frameWords, List.cons_append, List.append_assoc]
  exact framed_cons_start (decode_of_op_start (Laws.OpField.commandWord_op _ _)) hbytes

/-! ### The words of a call -/

/-- The three frames of an update (R137). -/
theorem framed_showWords (p : HostParams) (n : Fin 16) (seg : Four Byte) : framed true (showWords p n seg) = true := by
  rw [showWords, List.append_assoc, ← List.append_nil (frameWords [displayControlByte p n])]
  exact framed_frameWords_append _ (framed_frameWords_append _ (framed_frameWords_append _ rfl))

theorem performShow_framed (p : HostParams) (s : Session) (cs : List Char) :
    framed true (performShow p s cs).words = true := by
  unfold performShow
  split
  · rfl
  · exact framed_showWords p _ _

theorem flush_framed (p : HostParams) (s : Session) (a : Bool) : framed true (flush p s a).words = true := by
  cases a with
  | false => rfl
  | true => exact performShow_framed p s _

theorem performSetup_words (p : HostParams) (s : Session) (scheme : Option NumberingScheme) (ok : Bool) :
    (performSetup p s scheme ok).words = [] := by
  unfold performSetup
  split
  · rfl
  · split
    · rfl
    · cases ok <;> rfl

theorem performSetBrightness_framed (p : HostParams) (s : Session) (v : Int) (a : Bool) :
    framed true (performSetBrightness p s v a).words = true := by
  unfold performSetBrightness
  split
  · rfl
  · exact flush_framed p _ a

theorem whenReady_framed {s : Session} {o : CallOutcome} (h : framed true o.words = true) :
    framed true (whenReady s o).words = true := by
  unfold whenReady
  split
  · exact h
  · rfl

/-- Every call issues framed words, if any. -/
theorem performCall_framed (p : HostParams) (s : Session) (c : Call) : framed true (performCall p s c).words = true := by
  cases c with
  | setup scheme _ _ ok => exact congrArg (framed true) (performSetup_words p s scheme ok)
  | showChars cs => exact whenReady_framed (performShow_framed p s cs)
  | setDoublePoint v a => exact whenReady_framed (flush_framed p _ a)
  | setBrightness v a => exact whenReady_framed (performSetBrightness_framed p s v a)
  | getInstance | getBrightness | isShowDoublePoint | addCharacter _ _ => exact whenReady_framed rfl

/-! ### The host's turn -/

/-- The host's part of `State.SessionTraffic`: calls to come, and framed words left of the one in progress. -/
structure HostAgent.Framed (closed : Bool) (h : HostAgent) : Prop where
  calls : callsOnly h.script = true
  outbox : framed closed h.outbox = true

theorem callsOnly_tail {m : HostMove} {ms : List HostMove} (h : callsOnly (m :: ms) = true) : callsOnly ms = true :=
  (Bool.and_eq_true _ _ ▸ h).2

/-- Between its calls, a host that only makes calls is quiet or makes the next one. -/
theorem HostAgent.turn_of_callsOnly {h : HostAgent} (hc : callsOnly h.script = true) (ho : h.outbox = []) (r : Bool) :
    h.turn r = .quiet h ∨ ∃ c rest, h.script = .call c :: rest ∧ h.turn r = h.callTurn c rest := by
  unfold HostAgent.turn
  rw [ho]
  match hs : h.script with
  | [] => exact .inl rfl
  | .call c :: rest =>
    cases r with
    | false => exact .inl rfl
    | true => exact .inr ⟨c, rest, rfl, rfl⟩
  | .drive _ _ :: _ | .issue _ :: _ => rw [hs] at hc; cases hc

section
variable {closed : Bool} {h : HostAgent} (hf : h.Framed closed) (r : Bool)
include hf

/-- An edge that accepts nothing keeps the traffic framed, if it leaves the framer closed where it was. -/
theorem HostAgent.Framed.ifNot {closed' : Bool} (hc : closed = true → closed' = true) :
    (h.turn r).ifNot.Framed closed' := by
  cases ho : h.outbox with
  | cons w ws => rw [h.turn_of_outbox r w ws ho]; exact ⟨hf.calls, framed_mono hc hf.outbox⟩
  | nil =>
    rcases HostAgent.turn_of_callsOnly hf.calls ho r with ht | ⟨c, rest, hs, ht⟩
    · rw [ht]; exact ⟨hf.calls, framed_mono hc hf.outbox⟩
    · -- no word is left, so the framer is closed, and the call's words begin there
      have hclosed : closed' = true := hc (by have := hf.outbox; rwa [ho] at this)
      rw [ht, hclosed]
      exact ⟨callsOnly_tail (hs ▸ hf.calls), performCall_framed _ _ c⟩

/-- The word such a host offers is a word of the call in progress. -/
theorem HostAgent.Framed.ifAccepted (hv : (h.turn r).cmdValid = true) :
    (decode (h.turn r).cmd = .start → closed = true) ∧ (∀ d, decode (h.turn r).cmd ≠ .reserved d) ∧
      (h.turn r).ifAccepted.Framed (decide (decode (h.turn r).cmd = .stop)) := by
  cases ho : h.outbox with
  | cons w ws =>
    obtain ⟨hstart, hres, hws⟩ := (framed_cons_iff closed w ws).1 (ho ▸ hf.outbox)
    rw [h.turn_of_outbox r w ws ho]
    exact ⟨hstart, hres, hf.calls, hws⟩
  | nil =>
    rcases HostAgent.turn_of_callsOnly hf.calls ho r with ht | ⟨c, rest, -, ht⟩ <;> rw [ht] at hv <;> cases hv

end

/-! ### The framer -/

theorem Framer.startPreconditionFails_of_closed {f : Framer} (hp : f.phase = .idle) (h : f.closed = true) :
    f.startPreconditionFails = false := by
  simpa [Framer.closed, hp, Framer.startPreconditionFails] using h

/-- Of the commands but a reserved word, STOP alone closes the framer. -/
theorem acceptEdge_closed (U : Nat) {i : Instr} (hres : ∀ d, i ≠ .reserved d) (f : Framer) :
    (acceptEdge U i f).closed = decide (i = .stop) := by
  cases i with
  | start | stop | write _ => rfl
  | reserved d => exact absurd rfl (hres d)

/-- A closed framer stays closed until the next command: STOP releases both lines (R102). -/
theorem phaseEdge_closed (b : Build) (d : Bool) {f : Framer} (h : f.shapeOk = true) (hc : f.closed = true) :
    (phaseEdge b d f).closed = true := by
  rcases phaseEdge_cases b d f with ⟨-, -, he⟩ | ⟨-, he⟩
  · rw [he]; exact hc
  · rw [he]
    cases hp : f.phase with
    | idle => exact hc
    | stopW0 | stopW1 => rfl
    | stopW2 => simp_all [Phase.action, Framer.closed, Framer.shapeOk]
    | startW | bitLowW | bitData | bitHighW | ackLowW | ackHighW | ackEndW => simp [Framer.closed, hp] at hc

/-- The edges of a command in progress raise nothing (R171). -/
theorem phaseEdge_flags (b : Build) (d : Bool) (f : Framer) :
    (phaseEdge b d f).illegal = f.illegal ∧ (phaseEdge b d f).seqerr = f.seqerr := by
  rcases phaseEdge_cases b d f with ⟨-, -, he⟩ | ⟨-, he⟩
  · rw [he]; exact ⟨rfl, rfl⟩
  · rw [he]
    cases f.phase with
    | ackHighW => cases ha : b.ackSample <;> simp [Phase.action, ha]
    | idle | startW | stopW0 | stopW1 | stopW2 | bitLowW | bitData | bitHighW | ackLowW | ackEndW => exact ⟨rfl, rfl⟩

/-- The two causes of a flag are a reserved word and a START whose precondition fails (R171). -/
theorem acceptEdge_flags (U : Nat) {i : Instr} {f : Framer} (hres : ∀ d, i ≠ .reserved d)
    (hstart : i = .start → f.startPreconditionFails = false) :
    (acceptEdge U i f).illegal = f.illegal ∧ (acceptEdge U i f).seqerr = f.seqerr := by
  cases i with
  | start => simp [acceptEdge, hstart rfl]
  | stop | write _ => exact ⟨rfl, rfl⟩
  | reserved d => exact absurd rfl (hres d)

/-! ### The step -/

section
variable {s : State} (hs : s.SessionTraffic)
include hs

theorem State.SessionTraffic.host_framed : s.host.Framed s.framer.closed := ⟨hs.calls, hs.outbox⟩

/-- What the next edge accepts from such traffic, and what it leaves the host. -/
theorem State.SessionTraffic.of_accepts (ha : s.accepts = true) :
    (decode s.cmd = .start → s.framer.startPreconditionFails = false) ∧ (∀ d, decode s.cmd ≠ .reserved d) ∧
      s.hostTurn.ifAccepted.Framed (decide (decode s.cmd = .stop)) := by
  obtain ⟨-, hvalid, hidle⟩ := (State.accepts_iff s).1 ha
  obtain ⟨hstart, hrest⟩ := hs.host_framed.ifAccepted s.cmdReady hvalid
  exact ⟨fun hw => Framer.startPreconditionFails_of_closed hidle (hstart hw), hrest⟩

theorem State.SessionTraffic.advance_framed : s.advance.host.Framed (s.framerEdge s.framer).closed := by
  rw [State.advance_host, State.framerEdge]
  by_cases hr : s.rst = true
  · have ha : s.accepts = false := by simp [State.accepts, hr]
    simp only [hr, ha, if_true]
    exact hs.host_framed.ifNot _ fun _ => rfl
  by_cases ha : s.accepts = true
  · obtain ⟨-, hres, hleft⟩ := hs.of_accepts ha
    simp only [hr, ha, if_true]
    exact (acceptEdge_closed _ hres _).symm ▸ hleft
  · simp only [hr, ha]
    exact hs.host_framed.ifNot _ (phaseEdge_closed _ _ hs.inv.shape)

theorem State.SessionTraffic.framerEdge_flags : s.rst = true ∨
    (s.framerEdge s.framer).illegal = s.framer.illegal ∧ (s.framerEdge s.framer).seqerr = s.framer.seqerr := by
  unfold State.framerEdge
  split
  · next hr => exact .inl hr
  · split
    · next ha =>
      obtain ⟨hstart, hres, -⟩ := hs.of_accepts ha
      exact .inr (acceptEdge_flags _ hres hstart)
    · exact .inr (phaseEdge_flags _ _ _)

end

/-- Settles O43: the host's turn and the framer's edge keep the traffic framed together; a reset clears the flags, and of
framed words none raises one. -/
theorem sessionTrafficRaisesNoFlag : Obligations.SessionTrafficRaisesNoFlag := by
  intro s t hs h
  have hinv := everyStepKeepsTheInvariant s t hs.inv h
  cases (step_eq s).symm.trans h
  obtain ⟨hcalls, houtbox⟩ := hs.advance_framed
  refine ⟨⟨hinv, hcalls, houtbox⟩, fun hclear => ?_⟩
  rcases hs.framerEdge_flags with hr | ⟨hill, hseq⟩
  · simp [State.flagsClear, State.framerEdge, hr]
  · simpa [State.flagsClear, hill, hseq] using hclear

end Sys2Proof.Machine
end

section
/-! START and STOP (41_framing.md): the accepting edge of each, their waveforms at every edge (R100, R102), and the
conditions they make on a free bus (R101, R103, R104). The framer's part of a waveform is a run of Waits, whatever the
inputs but reset; what the bus shows is read off the waveform. -/

namespace Sys2Proof.Machine

/-! ### The accepting edge -/

theorem acceptEdge_start (U : Nat) (f : Framer) :
    acceptEdge U .start f = { f with
      dioOe := true, wcnt := U - 1, phase := .startW, seqerr := f.seqerr || f.clkOe || f.dioOe } := by
  rw [Bool.or_assoc]; rfl

theorem acceptEdge_stop (U : Nat) (f : Framer) :
    acceptEdge U .stop f = { f with dioOe := true, wcnt := U - 1, phase := .stopW0 } := rfl

/-- Settles O11: the accepting edge of START as one update of the registers (R100). -/
theorem startDrivesDioAndWaits : Obligations.StartDrivesDioAndWaits := by
  intro s
  rw [exec_eq_acceptEdge, State.onFramer, acceptEdge_start]

/-- Settles O12: the accepting edge of STOP as one update of the registers (R102). -/
theorem stopDrivesDioAndWaits : Obligations.StopDrivesDioAndWaits := by
  intro s
  rw [exec_eq_acceptEdge, State.onFramer, acceptEdge_stop]

/-- Settles O15: the registers named are none that the two accepting edges write. -/
theorem frameOfStartAndStop : Obligations.FrameOfStartAndStop := by
  intro i s t hi h
  rw [exec_eq_acceptEdge] at h
  cases h
  rcases hi with rfl | rfl
  · exact ⟨rfl, rfl, rfl, rfl, rfl, rfl, nofun, rfl, rfl, rfl, rfl⟩
  · exact ⟨rfl, rfl, rfl, rfl, rfl, rfl, fun _ => rfl, rfl, rfl, rfl, rfl⟩

/-! ### The session while a command runs -/

theorem step_session_of_accepts {s t : State} (ha : s.accepts = true) (h : step s = .next t) :
    t.host.session = s.host.session := by
  obtain ⟨g, rfl⟩ := step_eq_onFramer h
  rw [State.onFramer_host, State.advance_host, if_pos ha]
  exact (s.host.turn_session_of_valid s.cmdReady ((State.accepts_iff s).1 ha).2.1).2

theorem step_session_of_busy {s t : State} (hb : s.cmdReady = false) (h : step s = .next t) :
    t.host.session = s.host.session := by
  have ha : s.accepts = false := by rw [State.accepts, hb, Bool.and_false]
  obtain ⟨g, rfl⟩ := step_eq_onFramer h
  rw [State.onFramer_host, State.advance_host, ha, State.hostTurn, hb]
  exact s.host.turn_session_of_busy.1

/-- The last edge of a run. -/
theorem step_of_run {k : Nat} {s t u : State} (ht : run k s = .next t) (hu : run (k + 1) s = .next u) :
    step t = .next u := by
  obtain ⟨v, hv, h⟩ := run_succ_cases ((run_add k 1 s t ht).symm.trans hu)
  cases h; exact hv

/-- From its accepting edge to its end a command leaves the session alone: no edge before the end finds the framer ready. -/
theorem run_session_of_acceptsCommand {s t : State} {i : Instr} (hcmd : s.acceptsCommand i) (hU : 1 ≤ s.build.U)
    (hr : s.noResetFor (commandEdges s.build.U i + 1)) {k : Nat} (hk : k ≤ commandEdges s.build.U i)
    (h : run (k + 1) s = .next t) : t.host.session = s.host.session := by
  induction k generalizing t with
  | zero =>
    obtain ⟨u, hu, ht⟩ := run_succ_cases h
    cases ht
    exact step_session_of_accepts hcmd.1 hu
  | succ k ih =>
    obtain ⟨u, hu, hready⟩ := commandsTakeTheirDurations s i hcmd hU hr k (by omega)
    have hbusy : u.cmdReady = false := hready.trans (decide_eq_false (by omega))
    exact (step_session_of_busy hbusy (step_of_run hu h)).trans (ih (by omega) hu)

/-! ### Stretches of a command on any bus -/

/-- With no reset, `n` edges lead from the framer `f` to `g`, whatever the host and the other agents do meanwhile. -/
def Framer.Reaches (b : Build) (n : Nat) (f g : Framer) : Prop :=
  ∀ s : State, s.build = b → s.framer = f → s.noResetFor n → ∃ t, run n s = .next t ∧ t.framer = g

section
variable {b : Build} {f g h : Framer}

theorem Framer.Reaches.trans {n m : Nat} (h₁ : f.Reaches b n g) (h₂ : g.Reaches b m h) : f.Reaches b (n + m) h := by
  intro s hb hf hr
  obtain ⟨t, hst, hg⟩ := h₁ s hb hf fun j hj => hr j (by omega)
  obtain ⟨u, htu, hh⟩ := h₂ t ((run_build hst).trans hb) hg fun j hj => by
    rw [run_inputAt hst]; exact hr _ (by omega)
  exact ⟨u, (run_add n m s t hst).trans htu, hh⟩

theorem Framer.Reaches.edge (hbusy : f.phase ≠ .idle) (hg : ∀ d, phaseEdge b d f = g) : f.Reaches b 1 g := by
  rintro s rfl rfl hr
  exact ⟨_, run_succ 0 s _ (step_of_busy s hbusy (hr 0 Nat.one_pos)), hg s.dioIn⟩

/-- So far into a Wait, only the counter has moved (R92). -/
theorem Framer.Reaches.wait (hw : f.phase.waits) : ∀ k ≤ f.wcnt, f.Reaches b k { f with wcnt := f.wcnt - k }
  | 0, _ => fun s _ hf _ => ⟨s, rfl, hf⟩
  | k + 1, hk => (Framer.Reaches.wait hw k (by omega)).trans <| .edge hw.1 fun d =>
      phaseEdge_counts_down b d { f with wcnt := f.wcnt - k } (Nat.sub_ne_zero_of_lt hk) hw.1 hw.2

/-- A whole Wait, ended by the phase's action. -/
theorem Framer.Reaches.unit {p : Phase} (hp : f.phase = p) (hw : p.waits) (hU : f.wcnt + 1 = b.U)
    (hg : ∀ d, p.action b d { f with wcnt := 0 } = g) : f.Reaches b b.U g := by
  subst hp
  rw [← hU]
  refine (Framer.Reaches.wait hw f.wcnt le_rfl).trans (.edge hw.1 fun d => ?_)
  rw [Nat.sub_self, phaseEdge_eq_action b d _ fun _ => rfl]
  exact hg d

end

/-- What a command does from its accepting edge on, seen from the state in which that edge finds the framer. -/
theorem run_of_acceptsCommand {s : State} {i : Instr} (hcmd : s.acceptsCommand i) (hU : 1 ≤ s.build.U)
    (hr : s.noResetFor (commandEdges s.build.U i + 1)) {k : Nat} (hk : k ≤ commandEdges s.build.U i) {g : Framer}
    (hg : (acceptEdge s.build.U i s.framer).Reaches s.build k g) :
    ∃ t, run (k + 1) s = .next t ∧ t.framer = g ∧ t.build = s.build ∧ t.host.session = s.host.session := by
  have hstep := step_of_acceptsCommand hcmd
  obtain ⟨t, hrun, hf⟩ := hg (s.advance.onFramer (acceptEdge s.build.U i)) rfl rfl fun j hj => by
    rw [step_inputAt hstep]; exact hr _ (by omega)
  have h := (run_succ k s _ hstep).trans hrun
  exact ⟨t, h, hf, run_build h, run_session_of_acceptsCommand hcmd hU hr hk h⟩

/-! ### The waveforms -/

theorem Framer.eq_of_wave {f : Framer} {c d : Bool} {p : Phase} (h : f.wave = (c, d, p)) :
    f.clkOe = c ∧ f.dioOe = d ∧ f.phase = p := by
  simpa [Framer.wave] using h

/-- The framer but for the registers a waveform speaks of and the wait counter. -/
def Framer.withoutWave (f : Framer) : Framer := { f with clkOe := false, dioOe := false, phase := .idle, wcnt := 0 }

theorem Framer.eq_of_withoutWave {f g : Framer} (h : g.withoutWave = f.withoutWave) :
    g.sr = f.sr ∧ g.bitcnt = f.bitcnt ∧ g.illegal = f.illegal ∧ g.seqerr = f.seqerr ∧
      g.ackValid = f.ackValid ∧ g.ackLevel = f.ackLevel := by
  simpa [Framer.withoutWave] using h

/-- R100, from the accepting edge on: one Wait. -/
theorem start_reaches (b : Build) (hU : 1 ≤ b.U) (f : Framer) {k : Nat} (hk : k ≤ b.U) :
    ∃ g, (acceptEdge b.U .start f).Reaches b k g ∧ g.wave = startWave b.U f.clkOe k ∧
      g.withoutWave = (acceptEdge b.U .start f).withoutWave := by
  have hunit : b.U - 1 + 1 = b.U := Nat.sub_add_cancel hU
  rcases hk.lt_or_eq with hk | rfl
  · refine ⟨_, .wait (by decide : Phase.waits .startW) k (Nat.le_sub_one_of_lt hk), ?_, rfl⟩
    simp [startWave, hk, Framer.wave, acceptEdge]
  · refine ⟨_, .unit (p := .startW) rfl (by decide) hunit fun _ => rfl, ?_, rfl⟩
    simp [startWave, Framer.wave, acceptEdge]

section
variable {U k : Nat} (c : Bool)

theorem stopWave_of_lt (h : k < U) : stopWave U c k = (c, true, .stopW0) := if_pos h

theorem stopWave_of_lt_two_mul (h₁ : U ≤ k) (h₂ : k < 2 * U) : stopWave U c k = (false, true, .stopW1) := by
  simp [stopWave, h₁.not_gt, h₂]

theorem stopWave_of_lt_three_mul (h₁ : 2 * U ≤ k) (h₂ : k < 3 * U) : stopWave U c k = (false, false, .stopW2) := by
  simp [stopWave, show ¬ k < U by omega, h₁.not_gt, h₂]

theorem stopWave_end : stopWave U c (3 * U) = (false, false, .idle) := by
  simp [stopWave, show ¬ 3 * U < U by omega, show ¬ 3 * U < 2 * U by omega]

end

/-- R102, from the accepting edge on: three Waits, the first two ended by a release. -/
theorem stop_reaches (b : Build) (hU : 1 ≤ b.U) (f : Framer) {k : Nat} (hk : k ≤ 3 * b.U) :
    ∃ g, (acceptEdge b.U .stop f).Reaches b k g ∧ g.wave = stopWave b.U f.clkOe k ∧ g.withoutWave = f.withoutWave := by
  have hunit : b.U - 1 + 1 = b.U := Nat.sub_add_cancel hU
  have h₁ : (acceptEdge b.U .stop f).Reaches b b.U
      { f with clkOe := false, dioOe := true, wcnt := b.U - 1, phase := .stopW1 } :=
    .unit (p := .stopW0) rfl (by decide) hunit fun _ => rfl
  have h₂ : (acceptEdge b.U .stop f).Reaches b (b.U + b.U)
      { f with clkOe := false, dioOe := false, wcnt := b.U - 1, phase := .stopW2 } :=
    h₁.trans <| .unit (p := .stopW1) rfl (by decide) hunit fun _ => rfl
  by_cases hk₁ : k < b.U
  · exact ⟨_, .wait (by decide : Phase.waits .stopW0) k (Nat.le_sub_one_of_lt hk₁), (stopWave_of_lt _ hk₁).symm, rfl⟩
  by_cases hk₂ : k < 2 * b.U
  · obtain ⟨j, rfl⟩ := Nat.exists_eq_add_of_le (not_lt.1 hk₁)
    exact ⟨_, h₁.trans (.wait (by decide : Phase.waits .stopW1) j (by simp only; omega)),
      (stopWave_of_lt_two_mul _ (by omega) hk₂).symm, rfl⟩
  by_cases hk₃ : k < 3 * b.U
  · obtain ⟨j, rfl⟩ := Nat.exists_eq_add_of_le (show b.U + b.U ≤ k by omega)
    exact ⟨_, h₂.trans (.wait (by decide : Phase.waits .stopW2) j (by simp only; omega)),
      (stopWave_of_lt_three_mul _ (by omega) hk₃).symm, rfl⟩
  · obtain rfl : k = b.U + b.U + b.U := by omega
    refine ⟨_, h₂.trans (.unit (p := .stopW2) rfl (by decide) hunit fun _ => rfl), ?_, rfl⟩
    rw [show b.U + b.U + b.U = 3 * b.U by omega, stopWave_end]
    rfl

/-- Settles O19: R100's Wait, with the registers beside the waveform as the accepting edge leaves them. -/
theorem startRunsItsWaveform : Obligations.StartRunsItsWaveform := by
  intro s hcmd hU hr k hk
  obtain ⟨g, hg, hwave, hrest⟩ := start_reaches s.build hU s.framer hk
  obtain ⟨t, hrun, rfl, hbuild, hsession⟩ := run_of_acceptsCommand hcmd hU hr hk hg
  rw [acceptEdge_start] at hrest
  obtain ⟨hsr, hbitcnt, hillegal, hseqerr, hvalid, hlevel⟩ := Framer.eq_of_withoutWave hrest
  exact ⟨t, hrun, hwave, hsr, hbitcnt, hillegal, hseqerr, hvalid, hlevel, hbuild, hsession⟩

/-- Settles O20: R102's three Waits, in which only the enables, the phase and the counter move. -/
theorem stopRunsItsWaveform : Obligations.StopRunsItsWaveform := by
  intro s hcmd hU hr k hk
  obtain ⟨g, hg, hwave, hrest⟩ := stop_reaches s.build hU s.framer hk
  obtain ⟨t, hrun, rfl, hbuild, hsession⟩ := run_of_acceptsCommand hcmd hU hr hk hg
  obtain ⟨hsr, hbitcnt, hillegal, hseqerr, hvalid, hlevel⟩ := Framer.eq_of_withoutWave hrest
  exact ⟨t, hrun, hwave, hsr, hbitcnt, hillegal, hseqerr, hvalid, hlevel, hbuild, hsession⟩

/-! ### The waveforms on a free bus -/

theorem State.noResetFor_of_busFreeFor {s : State} {k : Nat} (h : s.busFreeFor k) : s.noResetFor k :=
  fun j hj => by rw [h j hj]

/-- The levels of the lines that a waveform's enables give on a free bus. -/
def waveLines (w : Bool × Bool × Phase) : Lines := { clk := !w.1, dio := !w.2.1 }

/-- On a free bus the lines follow the enables. -/
theorem lines_of_run {s t : State} {n k : Nat} (hfree : s.busFreeFor n) (hk : k < n) (h : run k s = .next t) :
    t.lines = waveLines t.framer.wave :=
  State.lines_of_busFree (n := 0) (State.busFreeFor_after_run (fun j hj => hfree j (by omega)) h)

theorem busTrace_succ_of_run {k : Nat} {s t u : State} (ht : run k s = .next t) (hu : run (k + 1) s = .next u) :
    busTrace (k + 1) s = busTrace k s ++ (busEvent t.lines u.lines).toList := by
  rw [busTrace_add k 1 ht, busTrace_succ 0 (step_of_run ht hu)]
  exact congrArg _ (List.append_nil _)

/-- Edges between which the lines stand still add nothing to the trace. -/
theorem busTrace_add_of_lines_eq {s : State} {l : Lines} (j n : Nat)
    (h : ∀ k, j ≤ k → k ≤ j + n → ∃ t, run k s = .next t ∧ t.lines = l) : busTrace (j + n) s = busTrace j s := by
  induction n with
  | zero => rfl
  | succ n ih =>
    obtain ⟨t, ht, htl⟩ := h (j + n) (by omega) (by omega)
    obtain ⟨u, hu, hul⟩ := h (j + n + 1) (by omega) le_rfl
    rw [← Nat.add_assoc, busTrace_succ_of_run ht hu, ih fun k h₁ h₂ => h k h₁ (by omega), htl, hul, busEvent_self]
    exact List.append_nil _

/-- The lines of an idle bus. -/
theorem State.lines_of_released {s : State} {n : Nat} (hfree : s.busFreeFor (n + 1)) (hclk : s.framer.clkOe = false)
    (hdio : s.framer.dioOe = false) : s.lines = { clk := true, dio := true } := by
  rw [State.lines_of_busFree hfree, Framer.freeLines, hclk, hdio]
  rfl

/-- Settles O28: the accepting edge drives DIO from an idle bus, and CLK stands as R100's waveform has it. -/
theorem startMakesAStartCondition : Obligations.StartMakesAStartCondition := by
  intro s hcmd hclk hdio hU hfree
  have hwave := startRunsItsWaveform s hcmd hU (State.noResetFor_of_busFreeFor fun j hj => hfree j (by omega))
  refine ⟨?_, fun k hk => ?_⟩
  · obtain ⟨t, hrun, hw, -, -, -, hseq, -⟩ := hwave 0 (Nat.zero_le _)
    refine ⟨t, step_of_run (run_zero s) hrun, ?_, by simp [hseq, hclk, hdio]⟩
    rw [State.lines_of_released hfree hclk hdio, lines_of_run hfree (by omega) hrun, hw, hclk]
    rfl
  · obtain ⟨t, hrun, hw, -⟩ := hwave k hk
    rw [hclk] at hw
    exact ⟨t, hrun, (Framer.eq_of_wave hw).1, by rw [lines_of_run hfree (by omega) hrun, hw]; rfl⟩

/-- R102 on a free bus: the enables and the lines after each edge of a STOP. -/
theorem stop_wave_and_lines {s : State} (hcmd : s.acceptsCommand .stop) (hU : 1 ≤ s.build.U)
    (hfree : s.busFreeFor (3 * s.build.U + 2)) {k : Nat} (hk : k ≤ 3 * s.build.U) :
    ∃ t, run (k + 1) s = .next t ∧ t.framer.wave = stopWave s.build.U s.framer.clkOe k ∧
      t.lines = waveLines (stopWave s.build.U s.framer.clkOe k) := by
  obtain ⟨t, hrun, hw, -⟩ := stopRunsItsWaveform s hcmd hU
    (State.noResetFor_of_busFreeFor fun j hj => hfree j (by omega)) k hk
  exact ⟨t, hrun, hw, by rw [lines_of_run hfree (by omega) hrun, hw]⟩

/-- Settles O29: the edges `e + U`, `e + 2U` and `e + 3U` of R102's waveform, and the one before `e + 2U`. -/
theorem stopMakesAStopCondition : Obligations.StopMakesAStopCondition := by
  intro s hcmd hU hfree
  refine ⟨?_, ?_, ?_⟩
  · obtain ⟨t, hrun, hw, -⟩ := stop_wave_and_lines hcmd hU hfree (k := s.build.U) (by omega)
    rw [stopWave_of_lt_two_mul _ le_rfl (by omega)] at hw
    exact ⟨t, hrun, (Framer.eq_of_wave hw).1⟩
  · obtain ⟨t, ht, htw, htl⟩ := stop_wave_and_lines hcmd hU hfree (k := 2 * s.build.U - 1) (by omega)
    obtain ⟨u, hu, huw, hul⟩ := stop_wave_and_lines hcmd hU hfree (k := 2 * s.build.U) (by omega)
    rw [Nat.sub_add_cancel (by omega)] at ht
    rw [stopWave_of_lt_two_mul _ (by omega) (by omega)] at htw htl
    rw [stopWave_of_lt_three_mul _ le_rfl (by omega)] at huw hul
    obtain ⟨htc, htd, -⟩ := Framer.eq_of_wave htw
    obtain ⟨huc, hud, -⟩ := Framer.eq_of_wave huw
    exact ⟨t, u, ht, hu, htd, hud, htc, huc, by rw [htl, hul]; rfl⟩
  · obtain ⟨t, hrun, hw, -⟩ := stop_wave_and_lines hcmd hU hfree le_rfl
    rw [stopWave_end] at hw
    obtain ⟨hc, hd, hp⟩ := Framer.eq_of_wave hw
    exact ⟨t, hrun, hp, hc, hd, by rw [Framer.startPreconditionFails, hc, hd]; rfl⟩

theorem waveLines_stopWave_of_released (U k : Nat) :
    waveLines (stopWave U false k) = { clk := true, dio := decide (2 * U ≤ k) } := by
  unfold stopWave
  split
  · simp [waveLines, show ¬ 2 * U ≤ k by omega]
  · split
    · simp [waveLines, show ¬ 2 * U ≤ k by omega]
    · split <;> simp [waveLines, show 2 * U ≤ k by omega]

/-- From the idle bus a STOP holds DIO low, CLK being high, until it releases DIO at `e + 2U`. -/
theorem stop_lines_from_idle {s : State} (hcmd : s.acceptsCommand .stop) (hclk : s.framer.clkOe = false)
    (hU : 1 ≤ s.build.U) (hfree : s.busFreeFor (3 * s.build.U + 2)) {k : Nat} (h₁ : 1 ≤ k)
    (h₂ : k ≤ 3 * s.build.U + 1) :
    ∃ t, run k s = .next t ∧ t.lines = { clk := true, dio := decide (2 * s.build.U < k) } := by
  obtain ⟨k, rfl⟩ := Nat.exists_eq_add_of_le' h₁
  obtain ⟨t, hrun, -, hl⟩ := stop_wave_and_lines hcmd hU hfree (Nat.le_of_succ_le_succ h₂)
  exact ⟨t, hrun, by rw [hl, hclk, waveLines_stopWave_of_released, decide_eq_decide.2 Nat.lt_succ_iff.symm]⟩

/-- Settles O30: DIO falls at `e` and rises at `e + 2U`, CLK stays high, and between those edges the lines stand still. -/
theorem stopFromIdleIsAnEmptyFrame : Obligations.StopFromIdleIsAnEmptyFrame := by
  intro s hcmd hclk hdio hU hfree
  have hlow : ∀ k, 1 ≤ k → k ≤ 2 * s.build.U → ∃ t, run k s = .next t ∧ t.lines = { clk := true, dio := false } :=
    fun k h₁ h₂ => decide_eq_false h₂.not_gt ▸ stop_lines_from_idle hcmd hclk hU hfree h₁ (by omega)
  have hhigh : ∀ k, 2 * s.build.U + 1 ≤ k → k ≤ 3 * s.build.U + 1 →
      ∃ t, run k s = .next t ∧ t.lines = { clk := true, dio := true } :=
    fun k h₁ h₂ => decide_eq_true h₁ ▸ stop_lines_from_idle hcmd hclk hU hfree (by omega) h₂
  obtain ⟨t₁, hr₁, hl₁⟩ := hlow 1 le_rfl (by omega)
  obtain ⟨t₂, hr₂, hl₂⟩ := hlow (2 * s.build.U) (by omega) le_rfl
  obtain ⟨t₃, hr₃, hl₃⟩ := hhigh (2 * s.build.U + 1) le_rfl (by omega)
  have hfirst : busTrace 1 s = [.startCondition] := by
    rw [busTrace_succ_of_run (run_zero s) hr₁, State.lines_of_released hfree hclk hdio, hl₁]
    rfl
  have hmid : busTrace (2 * s.build.U) s = [.startCondition] := by
    have h := busTrace_add_of_lines_eq 1 (2 * s.build.U - 1) fun k h₁ h₂ => hlow k h₁ (by omega)
    rwa [Nat.add_sub_of_le (by omega), hfirst] at h
  have hstop : busTrace (2 * s.build.U + 1) s = [.startCondition, .stopCondition] := by
    rw [busTrace_succ_of_run hr₂ hr₃, hmid, hl₂, hl₃]
    rfl
  refine ⟨hfirst, hmid, ?_, hstop, ?_⟩
  · obtain ⟨t, ht, htl⟩ := hlow s.build.U hU (by omega)
    obtain ⟨u, hu, hul⟩ := hlow (s.build.U + 1) (by omega) (by omega)
    exact ⟨t, u, ht, hu, hul.trans htl.symm⟩
  · have h := busTrace_add_of_lines_eq (2 * s.build.U + 1) s.build.U fun k h₁ h₂ => hhigh k h₁ (by omega)
    rwa [hstop, show 2 * s.build.U + 1 + s.build.U = 3 * s.build.U + 1 by omega] at h

end Sys2Proof.Machine
end

section
/-! WRITE (42_byte-write.md): its accepting edge, its waveform at every edge (R110) with the acknowledgment sample (R111), and
the edges at which DIO may change (R113). What the framer does up to the sample does not depend on the lines; the sample
does, so the last unit of the command is run from the state that the sampling edge leaves. -/

namespace Sys2Proof.Machine

/-! ### The accepting edge -/

theorem acceptEdge_write (U : Nat) (byte : Byte) (f : Framer) :
    acceptEdge U (.write byte) f = { f with
      sr := byte, bitcnt := 0#4, clkOe := true, wcnt := U - 1, phase := .bitLowW } := rfl

/-- Settles O13: the accepting edge of WRITE as one update of the registers (R110). -/
theorem writeLoadsTheByteAndDrivesClk : Obligations.WriteLoadsTheByteAndDrivesClk := by
  intro b s
  rw [exec_eq_acceptEdge, State.onFramer, acceptEdge_write]

/-- Settles O16: the registers named are none that the two accepting edges write. -/
theorem frameOfWriteAndReserved : Obligations.FrameOfWriteAndReserved := by
  intro i b s t hi h
  rw [exec_eq_acceptEdge] at h
  cases h
  rcases hi with rfl | rfl
  · exact ⟨rfl, rfl, rfl, rfl, fun _ => rfl, nofun, rfl, rfl, rfl, rfl⟩
  · exact ⟨rfl, rfl, rfl, rfl, nofun, fun _ => ⟨rfl, rfl, rfl, rfl, rfl⟩, rfl, rfl, rfl, rfl⟩

/-! ### Where DIO changes -/

/-- Only the edges that end STOP_W1 and BIT_LOW_W write `dio_oe` (R93). -/
theorem phaseEdge_dioOe_of_ne (b : Build) (d : Bool) {f : Framer} (hstop : f.phase ≠ .stopW1)
    (hbit : f.phase ≠ .bitLowW) : (phaseEdge b d f).dioOe = f.dioOe := by
  rcases phaseEdge_cases b d f with ⟨-, -, he⟩ | ⟨-, he⟩
  · rw [he]
  · rw [he]
    cases hp : f.phase with
    | stopW1 => exact absurd hp hstop
    | bitLowW => exact absurd hp hbit
    | ackHighW => cases ha : b.ackSample <;> simp [Phase.action, ha]
    | idle | startW | stopW0 | stopW2 | bitData | bitHighW | ackLowW | ackEndW => rfl

/-- BIT_LOW_W holds CLK, through its Wait and at its end (R113). -/
theorem phaseEdge_clkOe_of_bitLowW (b : Build) (d : Bool) {f : Framer} (hp : f.phase = .bitLowW) :
    (phaseEdge b d f).clkOe = f.clkOe := by
  rcases phaseEdge_cases b d f with ⟨-, -, he⟩ | ⟨-, he⟩
  · rw [he]
  · rw [he, hp]; rfl

/-- Settles O25: of WRITE's phases BIT_LOW_W alone changes DIO, and the invariant says that CLK is driven there. -/
theorem dioChangesOnlyWhileClkIsDriven : Obligations.DioChangesOnlyWhileClkIsDriven := by
  intro s t hinv hphase hrst hstep hdio
  have hbusy : s.framer.phase ≠ .idle := fun h => by simp [h] at hphase
  have hstop : s.framer.phase ≠ .stopW1 := fun h => by simp [h] at hphase
  cases (step_of_busy s hbusy ((s.rst_of_busy hbusy).symm.trans hrst)).symm.trans hstep
  have hbit : s.framer.phase = .bitLowW := not_not.1 fun hne => hdio (phaseEdge_dioOe_of_ne _ _ hstop hne)
  have hclk : s.framer.clkOe = true := ((Framer.shapeOk_iff_of_bitLowW hbit).1 hinv.shape).1
  exact ⟨hclk, (phaseEdge_clkOe_of_bitLowW _ _ hbit).trans hclk⟩

/-! ### The data bits in the registers -/

/-- The framer of a WRITE of `byte` accepted in `f` once `i` bits are sent: it begins the next one, or after the eighth the
ack cycle (R110). -/
def Framer.afterBits (U : Nat) (byte : Byte) (i : Nat) (f : Framer) : Framer :=
  { f with
    clkOe := true, dioOe := if i = 0 then f.dioOe else !byte.getLsbD (i - 1), sr := byte >>> i
    bitcnt := BitVec.ofNat 4 i, wcnt := U - 1, phase := if i = 8 then .ackLowW else .bitLowW }

theorem acceptEdge_write_eq_afterBits (U : Nat) (byte : Byte) (f : Framer) :
    acceptEdge U (.write byte) f = f.afterBits U byte 0 := by
  simp [acceptEdge_write, Framer.afterBits]

theorem Framer.bitSent_afterBits (U : Nat) (byte : Byte) (f : Framer) {i : Nat} (hi : i < 8) :
    (f.afterBits U byte i).bitSent U = f.afterBits U byte (i + 1) := by
  have hlast : BitVec.ofNat 4 (i + 1) = 8#4 ↔ i + 1 = 8 := by
    rw [← BitVec.toNat_inj, BitVec.toNat_ofNat, Nat.mod_eq_of_lt (by omega)]; rfl
  simp [Framer.bitSent, Framer.afterBits, ← BitVec.ofNat_add, hlast, BitVec.shiftRight_add]

/-- BIT_DATA: the lowest bit of `sr` is on DIO and shifted out. -/
def Framer.bitPlaced (f : Framer) : Framer := ({ f with wcnt := 0 } : Framer).placeBit.enter .bitData

/-- BIT_HIGH_W begins: CLK is released on the bit, and the bit is counted. -/
def Framer.bitShown (U : Nat) (f : Framer) : Framer := (f.bitPlaced.release .clk).countBit.startWait U .bitHighW

section
variable {b : Build} {f : Framer} (hp : f.phase = .bitLowW) (hU : f.wcnt + 1 = b.U)
include hp hU

theorem Framer.Reaches.bitPlaced : f.Reaches b b.U f.bitPlaced := .unit hp (by decide) hU fun _ => rfl

theorem Framer.Reaches.bitShown : f.Reaches b (b.U + 1) (f.bitShown b.U) :=
  (Framer.Reaches.bitPlaced hp hU).trans <| .edge (by simp [Framer.bitPlaced]) fun d =>
    phaseEdge_eq_action b d _ fun hw => absurd rfl hw.2

theorem Framer.Reaches.bitSent : f.Reaches b (2 * b.U + 1) (f.bitSent b.U) := by
  have hhold : (f.bitShown b.U).Reaches b b.U (f.bitSent b.U) :=
    .unit (p := .bitHighW) rfl (by decide) (Nat.sub_add_cancel (by omega)) fun _ => rfl
  have h := (Framer.Reaches.bitShown hp hU).trans hhold
  rwa [show b.U + 1 + b.U = 2 * b.U + 1 by omega] at h

end

/-- R110: `i` data bits take the edges up to `t_i`. -/
theorem afterBits_reaches {b : Build} (hU : 1 ≤ b.U) (byte : Byte) (f : Framer) {i : Nat} (hi : i ≤ 8) :
    (f.afterBits b.U byte 0).Reaches b (i * (2 * b.U + 1)) (f.afterBits b.U byte i) := by
  induction i with
  | zero => rw [Nat.zero_mul]; exact fun s _ hf _ => ⟨s, rfl, hf⟩
  | succ i ih =>
    have hbit := Framer.Reaches.bitSent (b := b) (f := f.afterBits b.U byte i) (if_neg (by omega))
      (Nat.sub_add_cancel hU)
    rw [Framer.bitSent_afterBits _ _ _ hi] at hbit
    rw [Nat.succ_mul]
    exact (ih (by omega)).trans hbit

/-! ### R110's table of edges -/

/-- The framer `g` is as R110's table has it after edge `e + k` of a WRITE of `byte` accepted at `e` in the framer `f`. -/
structure Framer.OnWriteTable (g : Framer) (U : Nat) (byte : Byte) (f : Framer) (k : Nat) : Prop where
  wave : g.wave = writeWave U byte f.dioOe k
  shift : (g.sr, g.bitcnt) = writeShift U byte k
  illegal : g.illegal = f.illegal
  seqerr : g.seqerr = f.seqerr

section
variable {U i r : Nat} (byte : Byte)

section
variable (hi : i < 8) (hr : r < 2 * U + 1)
include hi hr

/-- Edge `r` of bit `i`, found again in the table's `k`. -/
theorem bitEdge_index :
    i * (2 * U + 1) + r < 16 * U + 8 ∧ (i * (2 * U + 1) + r) / (2 * U + 1) = i ∧
      (i * (2 * U + 1) + r) % (2 * U + 1) = r := by
  refine ⟨?_, ?_, ?_⟩
  · have h : (i + 1) * (2 * U + 1) ≤ 8 * (2 * U + 1) := Nat.mul_le_mul_right _ hi
    rw [Nat.succ_mul] at h
    omega
  · rw [Nat.mul_comm, Nat.mul_add_div (by omega), Nat.div_eq_of_lt hr, Nat.add_zero]
  · rw [Nat.mul_comm, Nat.mul_add_mod, Nat.mod_eq_of_lt hr]

theorem writeWave_bit (dioOe : Bool) : writeWave U byte dioOe (i * (2 * U + 1) + r) =
    if r < U then (true, if i = 0 then dioOe else !byte.getLsbD (i - 1), .bitLowW)
    else if r = U then (true, !byte.getLsbD i, .bitData) else (false, !byte.getLsbD i, .bitHighW) := by
  obtain ⟨hlt, hdiv, hmod⟩ := bitEdge_index hi hr
  simp only [writeWave, hlt, hdiv, hmod, if_true]

theorem writeShift_bit : writeShift U byte (i * (2 * U + 1) + r) =
    (if r < U then byte >>> i else byte >>> (i + 1), if r ≤ U then BitVec.ofNat 4 i else BitVec.ofNat 4 (i + 1)) := by
  obtain ⟨hlt, hdiv, hmod⟩ := bitEdge_index hi hr
  simp only [writeShift, hlt, hdiv, hmod, if_true]

end

theorem writeWave_ack (dioOe : Bool) : writeWave U byte dioOe (16 * U + 8 + r) =
    if r < U then (true, !byte.getLsbD 7, .ackLowW) else if r < 2 * U then (false, !byte.getLsbD 7, .ackHighW)
    else if r < 3 * U then (true, !byte.getLsbD 7, .ackEndW) else (true, !byte.getLsbD 7, .idle) := by
  simp only [writeWave, Nat.not_lt.2 (Nat.le_add_right _ r), Nat.add_sub_cancel_left, if_false]

theorem writeShift_ack : writeShift U byte (16 * U + 8 + r) = (0x00#8, if r < 3 * U then 8#4 else 0#4) := by
  simp only [writeShift, Nat.not_lt.2 (Nat.le_add_right _ r), if_false,
    show 16 * U + 8 + r < 19 * U + 8 ↔ r < 3 * U by omega]

end

/-- A whole data bit: CLK driven for a Wait, the bit placed for one edge, CLK released for a Wait. -/
theorem bit_onWriteTable {b : Build} (hU : 1 ≤ b.U) (byte : Byte) (f : Framer) {i r : Nat} (hi : i < 8)
    (hr : r < 2 * b.U + 1) :
    ∃ g, (f.afterBits b.U byte i).Reaches b r g ∧ g.OnWriteTable b.U byte f (i * (2 * b.U + 1) + r) := by
  have hp : (f.afterBits b.U byte i).phase = .bitLowW := if_neg (by omega)
  have hwait : (f.afterBits b.U byte i).wcnt + 1 = b.U := Nat.sub_add_cancel hU
  have hwave := writeWave_bit byte hi hr f.dioOe
  have hshift := writeShift_bit byte hi hr
  rcases lt_trichotomy r b.U with hlt | rfl | hgt
  · rw [if_pos hlt] at hwave
    rw [if_pos hlt, if_pos hlt.le] at hshift
    refine ⟨_, .wait (by rw [hp]; decide) r (by omega), ?_, hshift.symm, rfl, rfl⟩
    rw [hwave, Framer.wave, hp]; rfl
  · rw [if_neg (lt_irrefl _), if_pos rfl] at hwave
    rw [if_neg (lt_irrefl _), if_pos le_rfl] at hshift
    refine ⟨_, .bitPlaced hp hwait, ?_, ?_, rfl, rfl⟩
    · simp [hwave, Framer.wave, Framer.bitPlaced, Framer.afterBits]
    · simp [hshift, Framer.bitPlaced, Framer.afterBits, BitVec.shiftRight_add]
  · obtain ⟨j, rfl⟩ := Nat.exists_eq_add_of_le (Nat.succ_le_of_lt hgt)
    rw [if_neg hgt.not_gt, if_neg hgt.ne'] at hwave
    rw [if_neg hgt.not_gt, if_neg hgt.not_ge] at hshift
    refine ⟨_, (Framer.Reaches.bitShown hp hwait).trans (.wait (by decide : Phase.waits .bitHighW) j ?_), ?_, ?_, rfl, rfl⟩
    · exact (show j ≤ b.U - 1 by omega)
    · simp [hwave, Framer.wave, Framer.bitShown, Framer.bitPlaced, Framer.afterBits]
    · simp [hshift, Framer.bitShown, Framer.bitPlaced, Framer.afterBits, BitVec.shiftRight_add, ← BitVec.ofNat_add]

/-! ### The ack cycle -/

/-- ACK_HIGH_W begins: CLK is released for the ack clock (R110). -/
def Framer.ackRaised (U : Nat) (byte : Byte) (f : Framer) : Framer :=
  ((f.afterBits U byte 8).release .clk).startWait U .ackHighW

/-- ACK_END_W begins: `dioIn` is sampled where the build has the option, and CLK is driven again (R110, R111). -/
def Framer.ackSampled (b : Build) (byte : Byte) (dioIn : Bool) (f : Framer) : Framer :=
  { f with
    clkOe := true, dioOe := !byte.getLsbD 7, sr := 0x00#8, bitcnt := 8#4, wcnt := b.U - 1, phase := .ackEndW
    ackValid := if b.ackSample = .present then byte.getLsbD 7 else f.ackValid
    ackLevel := if b.ackSample = .present then dioIn else f.ackLevel }

/-- The framer at the end of the command (R110, R112). -/
def Framer.writeEnded (b : Build) (byte : Byte) (dioIn : Bool) (f : Framer) : Framer :=
  { f.ackSampled b byte dioIn with phase := .idle, wcnt := 0, bitcnt := 0#4 }

/-- The sample as one update, for both builds (R111). -/
theorem Framer.sampleAck_eq (f : Framer) (a : AckSample) (dioIn : Bool) : f.sampleAck a dioIn = { f with
    ackValid := if a = .present then !f.dioOe else f.ackValid
    ackLevel := if a = .present then dioIn else f.ackLevel } := by
  cases a <;> rfl

theorem byte_shiftRight_eight (byte : Byte) : byte >>> 8 = 0x00#8 := BitVec.ushiftRight_eq_zero le_rfl

theorem ackHighW_action (b : Build) (byte : Byte) (dioIn : Bool) (f : Framer) :
    Phase.action b dioIn .ackHighW { f.ackRaised b.U byte with wcnt := 0 } = f.ackSampled b byte dioIn := by
  simp only [Phase.action, Framer.sampleAck_eq, Framer.ackSampled, ← byte_shiftRight_eight byte]
  simp [Framer.ackRaised, Framer.afterBits, Framer.release, Framer.startWait, Framer.drive]

section
variable {b : Build} (hU : 1 ≤ b.U) (byte : Byte) (f : Framer)
include hU

theorem ackLow_reaches : (f.afterBits b.U byte 0).Reaches b (16 * b.U + 8) (f.afterBits b.U byte 8) := by
  have h := afterBits_reaches hU byte f le_rfl
  rwa [show 8 * (2 * b.U + 1) = 16 * b.U + 8 by omega] at h

theorem ackRaised_reaches : (f.afterBits b.U byte 0).Reaches b (16 * b.U + 8 + b.U) (f.ackRaised b.U byte) :=
  (ackLow_reaches hU byte f).trans <| .unit (p := .ackLowW) rfl (by decide) (Nat.sub_add_cancel hU) fun _ => rfl

/-- Up to the edge that samples, the framer follows R110's table whatever the lines do. -/
theorem write_reaches {k : Nat} (hk : k < 18 * b.U + 8) :
    ∃ g, (f.afterBits b.U byte 0).Reaches b k g ∧ g.OnWriteTable b.U byte f k := by
  by_cases hbits : k < 16 * b.U + 8
  · have hi : k / (2 * b.U + 1) < 8 := Nat.div_lt_of_lt_mul (by omega)
    obtain ⟨g, hg, hon⟩ := bit_onWriteTable hU byte f hi (Nat.mod_lt k (by omega))
    have hreach := (afterBits_reaches hU byte f hi.le).trans hg
    rw [Nat.div_add_mod'] at hreach hon
    exact ⟨g, hreach, hon⟩
  obtain ⟨r, rfl⟩ := Nat.exists_eq_add_of_le (not_lt.1 hbits)
  have hwave := writeWave_ack (U := b.U) (r := r) byte f.dioOe
  have hshift := writeShift_ack (U := b.U) (r := r) byte
  rw [if_pos (by omega)] at hshift
  by_cases hlow : r < b.U
  · rw [if_pos hlow] at hwave
    refine ⟨_, (ackLow_reaches hU byte f).trans (.wait (by decide : Phase.waits .ackLowW) r (Nat.le_sub_one_of_lt hlow)),
      hwave.symm, ?_, rfl, rfl⟩
    rw [hshift, ← byte_shiftRight_eight byte]; rfl
  · rw [if_neg hlow, if_pos (by omega)] at hwave
    obtain ⟨j, rfl⟩ := Nat.exists_eq_add_of_le (not_lt.1 hlow)
    rw [← Nat.add_assoc] at hwave hshift ⊢
    refine ⟨_, (ackRaised_reaches hU byte f).trans (.wait (by decide : Phase.waits .ackHighW) j ?_),
      hwave.symm, ?_, rfl, rfl⟩
    · exact (show j ≤ b.U - 1 by omega)
    · rw [hshift, ← byte_shiftRight_eight byte]; rfl

/-- ACK_END_W's Wait ends the command. -/
theorem writeEnded_reaches (dioIn : Bool) :
    (f.ackSampled b byte dioIn).Reaches b b.U (f.writeEnded b byte dioIn) :=
  .unit (p := .ackEndW) rfl (by decide) (Nat.sub_add_cancel hU) fun _ => rfl

/-- The last Wait of the ack cycle, from the sample on. -/
theorem ackSampled_reaches (dioIn : Bool) {j : Nat} (hj : j ≤ b.U) :
    ∃ g, (f.ackSampled b byte dioIn).Reaches b j g ∧ g.OnWriteTable b.U byte f (16 * b.U + 8 + (2 * b.U + j)) := by
  have hwave := writeWave_ack (U := b.U) (r := 2 * b.U + j) byte f.dioOe
  have hshift := writeShift_ack (U := b.U) (r := 2 * b.U + j) byte
  rw [if_neg (by omega), if_neg (by omega)] at hwave
  rcases hj.lt_or_eq with hj | rfl
  · rw [if_pos (by omega)] at hwave hshift
    exact ⟨_, .wait (by decide : Phase.waits .ackEndW) j (Nat.le_sub_one_of_lt hj), hwave.symm, hshift.symm, rfl, rfl⟩
  · rw [if_neg (by omega)] at hwave hshift
    exact ⟨_, writeEnded_reaches hU byte f dioIn, hwave.symm, hshift.symm, rfl, rfl⟩

end

/-! ### The whole command -/

/-- The level of DIO at edge `a + 2U` of a WRITE, where `a` begins the ack cycle: that of bit 7, unless another agent pulls
the line (R22, R111). -/
def State.writeSample (s : State) (byte : Byte) : Bool :=
  byte.getLsbD 7 && !(s.inputAt (18 * s.build.U + 8)).chipDioPull

/-- A run goes on from where its last edge has left the framer. -/
theorem run_add_of_reaches {n m : Nat} {s t : State} {g : Framer} (ht : run n s = .next t)
    (hg : t.framer.Reaches s.build m g) (hr : s.noResetFor (n + m)) : ∃ u, run (n + m) s = .next u ∧ u.framer = g := by
  obtain ⟨u, hu, hgu⟩ := hg t (run_build ht) rfl fun j hj => by
    rw [run_inputAt ht]; exact hr _ (by omega)
  exact ⟨u, (run_add n m s t ht).trans hu, hgu⟩

section
variable {s : State} {byte : Byte} (hcmd : s.acceptsCommand (.write byte)) (hU : 1 ≤ s.build.U)
  (hr : s.noResetFor (19 * s.build.U + 9))
include hcmd hU hr

theorem run_write_of_reaches {k : Nat} (hk : k ≤ 19 * s.build.U + 8) {g : Framer}
    (hg : (s.framer.afterBits s.build.U byte 0).Reaches s.build k g) : ∃ t, run (k + 1) s = .next t ∧ t.framer = g := by
  rw [← acceptEdge_write_eq_afterBits] at hg
  obtain ⟨t, hrun, hf, -⟩ := run_of_acceptsCommand hcmd hU hr hk hg
  exact ⟨t, hrun, hf⟩

/-- The edge `a + 2U` of the ack cycle takes the sample (R111). -/
theorem run_to_ackSampled : ∃ t, run (18 * s.build.U + 9) s = .next t ∧
    t.framer = s.framer.ackSampled s.build byte (s.writeSample byte) := by
  have hwait : (s.framer.afterBits s.build.U byte 0).Reaches s.build (18 * s.build.U + 7)
      { s.framer.ackRaised s.build.U byte with wcnt := 0 } := by
    have h := (ackRaised_reaches hU byte s.framer).trans (.wait (by decide : Phase.waits .ackHighW) _ le_rfl)
    rw [Nat.sub_self] at h
    rwa [show 18 * s.build.U + 7 = 16 * s.build.U + 8 + s.build.U + (s.build.U - 1) by omega]
  obtain ⟨t, ht, hf⟩ := run_write_of_reaches hcmd hU hr (by omega) hwait
  have hin : t.inputAt 0 = s.inputAt (18 * s.build.U + 8) := by rw [run_inputAt ht, Nat.zero_add]
  have hbusy : t.framer.phase ≠ .idle := by rw [hf]; exact (by decide : Phase.ackHighW ≠ .idle)
  have hstep := step_of_busy t hbusy (by rw [hin]; exact hr _ (by omega))
  have hdio : t.dioIn = s.writeSample byte := by
    simp [State.dioIn, State.dioLine, State.input, hin, hf, Framer.ackRaised, Framer.afterBits, State.writeSample]
  refine ⟨_, run_succ_of_run ht hstep, ?_⟩
  rw [State.onFramer_framer, State.advance_framer, hdio, run_build ht, hf, phaseEdge_eq_action _ _ _ fun _ => rfl]
  exact ackHighW_action _ _ _ _

theorem run_write_from_sample {j : Nat} (hj : j ≤ s.build.U) {g : Framer}
    (hg : (s.framer.ackSampled s.build byte (s.writeSample byte)).Reaches s.build j g) :
    ∃ t, run (18 * s.build.U + 8 + j + 1) s = .next t ∧ t.framer = g := by
  obtain ⟨t, ht, hf⟩ := run_to_ackSampled hcmd hU hr
  rw [Nat.add_right_comm]
  exact run_add_of_reaches ht (hf ▸ hg) fun i hi => hr i (by omega)

/-- R110: the step function follows the table at every edge. -/
theorem run_write_onWriteTable {k : Nat} (hk : k ≤ 19 * s.build.U + 8) :
    ∃ t, run (k + 1) s = .next t ∧ t.framer.OnWriteTable s.build.U byte s.framer k := by
  by_cases hbefore : k < 18 * s.build.U + 8
  · obtain ⟨g, hg, hon⟩ := write_reaches hU byte s.framer hbefore
    obtain ⟨t, hrun, rfl⟩ := run_write_of_reaches hcmd hU hr hk hg
    exact ⟨t, hrun, hon⟩
  obtain ⟨j, rfl⟩ := Nat.exists_eq_add_of_le (not_lt.1 hbefore)
  obtain ⟨g, hg, hon⟩ := ackSampled_reaches hU byte s.framer (s.writeSample byte) (j := j) (by omega)
  rw [show 16 * s.build.U + 8 + (2 * s.build.U + j) = 18 * s.build.U + 8 + j by omega] at hon
  obtain ⟨t, hrun, rfl⟩ := run_write_from_sample hcmd hU hr (by omega) hg
  exact ⟨t, hrun, hon⟩

end

/-- Settles O21: the framer follows R110's table, no step writes the build, and no call is made before the end. -/
theorem writeRunsItsWaveform : Obligations.WriteRunsItsWaveform := by
  intro s byte hcmd hU hr k hk
  obtain ⟨t, hrun, hwave, hshift, hillegal, hseqerr⟩ := run_write_onWriteTable hcmd hU hr hk
  exact ⟨t, hrun, hwave, hshift, hillegal, hseqerr, run_build hrun, run_session_of_acceptsCommand hcmd hU hr hk hrun⟩

/-- Settles O22: from the sample on one Wait is left, which ends with the count cleared. -/
theorem writeEndStateAndAckSample : Obligations.WriteEndStateAndAckSample := by
  intro s byte hcmd hU hr
  obtain ⟨t, hrun, hf⟩ := run_write_from_sample hcmd hU hr le_rfl (writeEnded_reaches hU byte s.framer _)
  rw [show 18 * s.build.U + 8 + s.build.U + 1 = 19 * s.build.U + 9 by omega] at hrun
  exact ⟨t, hrun, hf⟩

end Sys2Proof.Machine
end

section
/-! The Display Session (45_host-sequences.md R135 to R146) call by call: what each shared operation of a session gives, and
the character table by its lookups (R142, R143). In canonical form a table is its lookups, so seeding it again, which changes
no lookup, leaves it equal. -/

namespace Sys2Proof.Machine

/-! ### The character table -/

/-- R142: a lookup after `charMap[c] <- b`. -/
theorem CharTable.get?_put (t : CharTable) (c : Char) (b : Byte) (d : Char) :
    (t.put c b).get? d = if c = d then some b else t.get? d := by
  induction t with
  | nil => rfl
  | cons a t ih =>
    obtain ⟨k, v⟩ := a
    simp only [CharTable.put]
    split
    · rfl
    · split
      · next hgt =>
        have hkc : k ≠ c := fun h => absurd hgt (h ▸ lt_irrefl _)
        simp only [CharTable.get?, ih]
        by_cases hkd : k = d
        · rw [if_pos hkd, if_neg fun hcd => hkc (hkd.trans hcd.symm), if_pos hkd]
        · rw [if_neg hkd, if_neg hkd]
      · next h₁ h₂ =>
        have hkc : k = c := Char.toNat_inj.1 (by omega)
        subst hkc
        by_cases hkd : k = d <;> simp [CharTable.get?, hkd]

/-- R143: of several entries for a character the last one seeded stays, and the other characters keep theirs. -/
theorem CharTable.get?_seed (es : List (Char × Byte)) (t : CharTable) (d : Char) :
    (t.seed es).get? d = (es.reverse.lookup d).or (t.get? d) := by
  induction es generalizing t with
  | nil => rfl
  | cons e es ih =>
    obtain ⟨c, b⟩ := e
    simp only [CharTable.seed, ih, CharTable.get?_put, List.reverse_cons, List.lookup_append, Option.or_assoc]
    by_cases h : c = d
    · simp [h]
    · simp [List.lookup_cons, h, beq_false_of_ne (Ne.symm h)]

theorem CharTable.get?_seed_of_not_mem {es : List (Char × Byte)} {d : Char} (h : ∀ e ∈ es, e.1 ≠ d) (t : CharTable) :
    (t.seed es).get? d = t.get? d := by
  have hnone : es.reverse.lookup d = none :=
    List.lookup_eq_none_iff.2 fun e he => by simpa using (h e (List.mem_reverse.1 he)).symm
  rw [CharTable.get?_seed, hnone, Option.none_or]

/-- No character below the first one of a table in canonical form is in it. -/
theorem CharTable.get?_eq_none_of_lt {t : CharTable} {c : Char} (hs : t.sorted = true)
    (hc : ∀ e ∈ t.head?, c.toNat < e.1.toNat) : t.get? c = none := by
  induction t with
  | nil => rfl
  | cons a t ih =>
    obtain ⟨k, v⟩ := a
    have hck : c.toNat < k.toNat := hc (k, v) rfl
    have hne : k ≠ c := fun h => absurd hck (h ▸ lt_irrefl _)
    rw [CharTable.get?, if_neg hne]
    exact ih (CharTable.sorted_tail _ _ hs) fun e he => hck.trans (CharTable.sorted_head _ _ hs e he)

/-- The first character of a table in canonical form is the least one in it. -/
theorem CharTable.head_le_of_get? {k c : Char} {v : Byte} {t : CharTable}
    (hs : CharTable.sorted ((k, v) :: t) = true) (hc : CharTable.get? ((k, v) :: t) c ≠ none) : k.toNat ≤ c.toNat :=
  not_lt.1 fun h => hc (CharTable.get?_eq_none_of_lt hs (by simpa using h))

theorem CharTable.get?_cons_self (k : Char) (v : Byte) (t : CharTable) :
    CharTable.get? ((k, v) :: t) k = some v := if_pos rfl

/-- Tables in canonical form with the same lookups are equal (log 12). -/
theorem CharTable.ext_of_sorted {t u : CharTable} (ht : t.sorted = true) (hu : u.sorted = true)
    (h : ∀ c, t.get? c = u.get? c) : t = u := by
  induction t generalizing u with
  | nil =>
    cases u with
    | nil => rfl
    | cons a u => have h₁ := h a.1; rw [CharTable.get?_cons_self] at h₁; cases h₁
  | cons a t ih =>
    cases u with
    | nil => have h₁ := h a.1; rw [CharTable.get?_cons_self] at h₁; cases h₁
    | cons a' u =>
      obtain ⟨k, v⟩ := a
      obtain ⟨k', v'⟩ := a'
      have hkk : k = k' := Char.toNat_inj.1 <| le_antisymm
        (CharTable.head_le_of_get? ht (by simp [h, CharTable.get?_cons_self]))
        (CharTable.head_le_of_get? hu (by simp [← h, CharTable.get?_cons_self]))
      subst hkk
      obtain rfl : v = v' := by simpa [CharTable.get?_cons_self] using h k
      have htail : ∀ c, CharTable.get? t c = CharTable.get? u c := fun c => by
        by_cases hc : k = c
        · subst hc
          rw [CharTable.get?_eq_none_of_lt (CharTable.sorted_tail _ _ ht) (CharTable.sorted_head _ _ ht),
            CharTable.get?_eq_none_of_lt (CharTable.sorted_tail _ _ hu) (CharTable.sorted_head _ _ hu)]
        · simpa [CharTable.get?, hc] using h c
      rw [ih (CharTable.sorted_tail _ _ ht) (CharTable.sorted_tail _ _ hu) htail]

/-- R143: seeding again "must not duplicate or corrupt the table". -/
theorem CharTable.seed_seed {t : CharTable} (h : t.sorted = true) (es : List (Char × Byte)) :
    (t.seed es).seed es = t.seed es := by
  have hs := CharTable.sorted_seed es t h
  refine CharTable.ext_of_sorted (CharTable.sorted_seed es _ hs) hs fun c => ?_
  rw [CharTable.get?_seed, CharTable.get?_seed, ← Option.or_assoc, Option.or_self]

/-- The default table is the rule's, and of its 19 entries none hides another (R143). -/
theorem seed_entriesOfR143 : defaultCharTable = entriesOfR143 ∧
    (CharTable.seed [] entriesOfR143).length = 19 ∧
    ∀ e ∈ entriesOfR143, (CharTable.seed [] entriesOfR143).get? e.1 = some e.2 := by decide

/-! ### Readiness and setup (R145, R146) -/

theorem whenReady_of_ready {s : Session} (h : s.ready = true) (o : CallOutcome) : whenReady s o = o := if_pos h

theorem whenReady_of_not_ready {s : Session} (h : s.ready = false) (o : CallOutcome) :
    whenReady s o = .quiet s (.illegalState .notReady) := by simp [whenReady, h]

theorem performCall_of_not_ready (p : HostParams) {s : Session} (h : s.ready = false) {c : Call}
    (hc : ∀ scheme cp dp ok, c ≠ .setup scheme cp dp ok) : performCall p s c = .quiet s (.illegalState .notReady) := by
  cases c with
  | setup scheme cp dp ok => exact absurd rfl (hc scheme cp dp ok)
  | getInstance | showChars _ | setDoublePoint _ _ | setBrightness _ _ | getBrightness | isShowDoublePoint
  | addCharacter _ _ => exact whenReady_of_not_ready h _

theorem performSetup_of_ready (p : HostParams) {s : Session} (h : s.ready = true) (scheme : Option NumberingScheme)
    (ok : Bool) : performSetup p s scheme ok = .quiet s (.illegalState .alreadyReady) := if_pos h

theorem performSetup_none (p : HostParams) {s : Session} (h : s.ready = false) (ok : Bool) :
    performSetup p s none ok = .quiet s (.invalidArgument .schemeUnspecified) := by simp [performSetup, h]

/-- The table is seeded before the Port reports (R145). -/
theorem performSetup_some (p : HostParams) {s : Session} (h : s.ready = false) (k : NumberingScheme) (ok : Bool) :
    performSetup p s (some k) ok =
      { session := { s with charMap := s.charMap.seed p.seedTable, ready := ok }
        result := .bool ok, words := [], resetsFramer := ok } := by
  cases ok <;> simp [performSetup, h, CallOutcome.quiet]

/-- Settles O53: readiness is checked first, by `setup` and by every other call. -/
theorem setupSucceedsOnce : Obligations.SetupSucceedsOnce := by
  intro p s k cp dp ok
  refine ⟨fun h scheme => performSetup_of_ready p h scheme ok, fun h => ⟨?_, ?_, fun c hc => ?_⟩, fun h => ?_⟩
  · exact performSetup_none p h ok
  · exact performSetup_some p h k ok
  · exact performCall_of_not_ready p h hc
  · exact whenReady_of_ready h _

/-- Settles O52: `setup` seeds the empty table with the rule's entries; what seeding does to a table in canonical form is
what it does to its lookups. -/
theorem seedingGivesTheDefaultTable : Obligations.SeedingGivesTheDefaultTable := by
  obtain ⟨htable, hlength, hentries⟩ := seed_entriesOfR143
  refine ⟨fun k cp dp ok => ⟨CharTable.seed [] entriesOfR143, ?_, hlength, fun c b hcb => hentries (c, b) hcb,
    fun c hc => CharTable.get?_seed_of_not_mem hc []⟩, ?_, ?_, fun t es h => CharTable.seed_seed h es,
    fun t es c _ hc => CharTable.get?_seed_of_not_mem hc t⟩
  · have hsetup := performSetup_some State.reset.host.params (s := State.reset.host.session) rfl k ok
    rw [← htable]
    exact congrArg (fun o => o.session.charMap) hsetup
  · rw [htable]
    exact fun c b hcb => hentries (c, b) hcb
  · rw [htable]
    exact hlength

/-- Settles O51: a lookup after `put`. -/
theorem addCharacterPutsOneEntry : Obligations.AddCharacterPutsOneEntry := by
  intro p s c b hready _
  refine ⟨s.charMap.put c b, whenReady_of_ready hready _, ?_, fun d hd => ?_⟩
  · rw [CharTable.get?_put, if_pos rfl]
  · rw [CharTable.get?_put, if_neg hd.symm]

/-! ### show (R135 to R138) -/

theorem performCall_showChars (p : HostParams) {s : Session} (h : s.ready = true) (chars : List Char) :
    performCall p s (.showChars chars) = performShow p s chars := whenReady_of_ready h _

/-- The first character that misses is named (R135). -/
theorem lookUpAll_of_unknown {t : CharTable} {known : List Char} (hk : ∀ k ∈ known, t.get? k ≠ none) {c : Char}
    (hc : t.get? c = none) (others : List Char) :
    lookUpAll t (known ++ c :: others) = .error (.unknownCharacter c) := by
  induction known with
  | nil => simp [lookUpAll, hc]
  | cons k known ih =>
    obtain ⟨b, hb⟩ := Option.ne_none_iff_exists'.1 (hk k List.mem_cons_self)
    simp [lookUpAll, hb, ih fun k' h => hk k' (List.mem_cons_of_mem _ h)]

theorem validateShow_of_length_ne (t : CharTable) {chars : List Char} (h : chars.length ≠ 4) :
    validateShow t chars = .error .badLength := by
  unfold validateShow
  split
  · exact absurd rfl h
  · rfl

theorem validateShow_of_lookUpAll_error {t : CharTable} {chars : List Char} (h : chars.length = 4)
    {e : ArgumentError} (he : lookUpAll t chars = .error e) : validateShow t chars = .error e := by
  obtain ⟨c0, c1, c2, c3, rfl⟩ := List.length_eq_four.1 h
  simp [validateShow, he]

theorem validateShow_of_known {t : CharTable} {c : Four Char} {b : Four Byte} (h0 : t.get? c.d0 = some b.d0)
    (h1 : t.get? c.d1 = some b.d1) (h2 : t.get? c.d2 = some b.d2) (h3 : t.get? c.d3 = some b.d3) :
    validateShow t c.toList = .ok (c, b) := by
  simp [validateShow, Four.toList, lookUpAll, h0, h1, h2, h3]

theorem performShow_of_error (p : HostParams) {s : Session} {chars : List Char} {e : ArgumentError}
    (h : validateShow s.charMap chars = .error e) : performShow p s chars = .quiet s (.invalidArgument e) := by
  simp [performShow, h]

theorem performShow_of_ok (p : HostParams) {s : Session} {chars : List Char} {c : Four Char} {b : Four Byte}
    (h : validateShow s.charMap chars = .ok (c, b)) : performShow p s chars =
      { session := { s with lastShown := c }, result := .done
        words := showWords p s.brightness (segmentBytes s.doublePoint b), resetsFramer := false } := by
  simp [performShow, h]

/-- Settles O45: the length alone decides, and else the first miss does. -/
theorem showRefusesBadArguments : Obligations.ShowRefusesBadArguments := by
  intro p s chars hready
  rw [performCall_showChars p hready]
  refine ⟨fun hlength => ?_, fun known c others hlength hsplit hk hc => ?_⟩
  · exact performShow_of_error p (validateShow_of_length_ne _ hlength)
  · exact performShow_of_error p
      (validateShow_of_lookUpAll_error hlength (hsplit ▸ lookUpAll_of_unknown hk hc others))

/-- R136: bit 7 of `s[1]` is set when the double point is, and nothing else is touched. -/
theorem segmentBytes_eq (dp : Bool) (seg : Four Byte) :
    segmentBytes dp seg = { seg with d1 := if dp then seg.d1 ||| 0x80#8 else seg.d1 } := by
  cases dp <;> rfl

/-- Settles O46: the validation gives the segment bytes, and each word of the frames is the sum of its fields. -/
theorem showIssuesThreeFrames : Obligations.ShowIssuesThreeFrames := by
  intro p s c b hready h0 h1 h2 h3
  refine (performCall_showChars p hready _).trans
    ((performShow_of_ok p (validateShow_of_known h0 h1 h2 h3)).trans ?_)
  rw [segmentBytes_eq]
  simp [showWords, frameWords, Four.toList, displayControlByte, commandWord_eq_add]

/-- Settles O47: OR works bit by bit, and the brightness fits the low nibble, which CMD_DISPCTRL leaves 0. -/
theorem displayControlLowNibbleIsBrightness : Obligations.DisplayControlLowNibbleIsBrightness := by
  intro p n hlow
  refine ⟨rfl, ?_⟩
  have hn : BitVec.ofNat 8 n.val &&& 0x0F#8 = BitVec.ofNat 8 n.val := by revert n; decide
  rw [displayControlByte, BitVec.and_or_distrib_right, hlow, hn, BitVec.zero_or, BitVec.toNat_ofNat]
  omega

/-! ### Setters and getters (R139 to R141) -/

/-- Settles O48: after the store the call is the flush. -/
theorem setDoublePointStoresThenFlushes : Obligations.SetDoublePointStoresThenFlushes := by
  intro p s v hready
  refine ⟨whenReady_of_ready hready _, ?_⟩
  rw [performCall_showChars p (s := { s with doublePoint := v }) hready]
  exact whenReady_of_ready hready _

theorem performSetBrightness_of_out_of_range (p : HostParams) (s : Session) {v : Int} (h : v < 0 ∨ 15 < v) (a : Bool) :
    performSetBrightness p s v a = .quiet s (.invalidArgument .brightnessOutOfRange) := if_pos h

theorem performSetBrightness_of_in_range (p : HostParams) (s : Session) (n : Fin 16) (a : Bool) :
    performSetBrightness p s n.val a = flush p { s with brightness := n } a := by
  have hn : Fin.ofNat 16 (n.val : Int).toNat = n := Fin.ext (Nat.mod_eq_of_lt n.isLt)
  rw [performSetBrightness, if_neg (by omega), hn]

/-- Settles O49: outside 0..15 the call ends at once; inside, after the store, it is the flush. -/
theorem setBrightnessChecksStoresThenFlushes : Obligations.SetBrightnessChecksStoresThenFlushes := by
  intro p s hready
  refine ⟨fun v a hv => ?_, fun n => ⟨?_, ?_⟩⟩
  · exact (whenReady_of_ready hready _).trans (performSetBrightness_of_out_of_range p s hv a)
  · exact (whenReady_of_ready hready _).trans (performSetBrightness_of_in_range p s n false)
  · rw [performCall_showChars p (s := { s with brightness := n }) hready]
    exact (whenReady_of_ready hready _).trans (performSetBrightness_of_in_range p s n true)

/-- Settles O50: a ready session answers with what it holds. -/
theorem gettersArePureReads : Obligations.GettersArePureReads := fun _ _ hready =>
  ⟨whenReady_of_ready hready _, whenReady_of_ready hready _⟩

end Sys2Proof.Machine
end

section
/-! The host agent at the command port (45_host-sequences.md R149): the word it holds, the edge of a call, and what it has
left while a command runs. On a free bus the words of its outbox then become stretches of edges with their events, word by
word, and by composition a FRAME (R132, 70_reset_and_hazards.md R201) and a `show` (R137, R150). -/

namespace Sys2Proof.Machine

/-! ### The edge of an offer and the edge of a call -/

theorem HostAgent.turn_of_issue {h : HostAgent} {w : CommandWord} {rest : List HostMove} (ho : h.outbox = [])
    (hs : h.script = .issue w :: rest) (r : Bool) : h.turn r = .offer w { h with script := rest } h := by
  simp [HostAgent.turn, ho, hs]

theorem HostAgent.turn_of_call {h : HostAgent} {c : Call} {rest : List HostMove} (ho : h.outbox = [])
    (hs : h.script = .call c :: rest) : h.turn true = h.callTurn c rest := by
  simp [HostAgent.turn, ho, hs]

theorem step_host {s t : State} (h : step s = .next t) :
    t.host = if s.accepts then s.hostTurn.ifAccepted else s.hostTurn.ifNot := by
  obtain ⟨g, rfl⟩ := step_eq_onFramer h
  rfl

/-- The port and the host at an edge that offers a word (R149). -/
theorem step_of_offer {s t : State} {w : CommandWord} {h' : HostAgent} (ht : s.hostTurn = .offer w h' s.host)
    (h : step s = .next t) : s.cmdValid = true ∧ s.cmd = w ∧ t.host = if s.accepts then h' else s.host := by
  rw [step_host h, State.cmdValid, State.cmd, ht]
  exact ⟨rfl, rfl, rfl⟩

/-- Settles O9: the word left of a call, or else the script's, is on the port, and only acceptance drops it. -/
theorem hostHoldsAnOfferUntilAccepted : Obligations.HostHoldsAnOfferUntilAccepted :=
  ⟨fun s _ w ws ho h => step_of_offer (s.host.turn_of_outbox s.cmdReady w ws ho) h,
   fun s _ _ _ ho hs h => step_of_offer (HostAgent.turn_of_issue ho hs s.cmdReady) h⟩

/-- Settles O55: the call's edge offers nothing, so it is a reset or an idle edge that accepts nothing. -/
theorem callEdgeLoadsTheWords : Obligations.CallEdgeLoadsTheWords := by
  intro s c rest hidle ho hs
  have hready : s.cmdReady = true := s.framer.cmdReady_iff.2 hidle
  have hturn : s.hostTurn = s.host.callTurn c rest := by rw [State.hostTurn, hready, HostAgent.turn_of_call ho hs]
  have haccepts : s.accepts = false := by simp [State.accepts, State.cmdValid, hturn, HostAgent.callTurn, HostTurn.quiet]
  have hrst : s.rst = (s.input.rst || (performCall s.host.params s.host.session c).resetsFramer) := by
    rw [State.rst, hturn]; rfl
  refine ⟨_, step_eq s, ?_, ?_⟩
  · rw [State.onFramer_host, State.advance_host, haccepts, hturn]; rfl
  · simp only [State.onFramer_framer, State.advance_framer, State.framerEdge, haccepts, hrst, Bool.or_eq_true,
      Bool.false_eq_true, if_false]
    split
    · rfl
    · exact phaseEdge_idle _ _ _ hidle

/-! ### What the host has left while a command runs -/

/-- `h'` is `h` with the words `ws` left to issue: the session stands still, and calls wait (log 9). -/
structure HostAgent.Left (ws : List CommandWord) (h h' : HostAgent) : Prop where
  outbox : h'.outbox = ws
  session : h'.session = h.session
  script : callsOnly h.script = true → h'.script = h.script

theorem HostAgent.Left.trans {ws ws' : List CommandWord} {h h' h'' : HostAgent} (h₁ : h.Left ws h')
    (h₂ : h'.Left ws' h'') : h.Left ws' h'' where
  outbox := h₂.outbox
  session := h₂.session.trans h₁.session
  script hc := (h₂.script (h₁.script hc ▸ hc)).trans (h₁.script hc)

/-- While the framer is busy the host keeps its words; of its script only `drive` moves go by. -/
theorem HostAgent.turn_left_of_busy (h : HostAgent) : h.Left h.outbox (h.turn false).ifNot := by
  refine ⟨?_, h.turn_session_of_busy.1, fun hc => ?_⟩
  · unfold HostAgent.turn
    split
    · rfl
    · split <;> rfl
  · cases ho : h.outbox with
    | cons w ws => rw [h.turn_of_outbox false w ws ho]; rfl
    | nil =>
      rcases HostAgent.turn_of_callsOnly hc ho false with ht | ⟨c, rest, hs, -⟩
      · rw [ht]; rfl
      · simp [HostAgent.turn, ho, hs, HostTurn.quiet]

theorem step_left_of_busy {s t : State} (hb : s.cmdReady = false) (h : step s = .next t) :
    s.host.Left s.host.outbox t.host := by
  have ha : s.accepts = false := by rw [State.accepts, hb, Bool.and_false]
  rw [step_host h, ha, State.hostTurn, hb]
  exact s.host.turn_left_of_busy

section
variable {s : State} {w : CommandWord} {ws : List CommandWord} (ho : s.host.outbox = w :: ws)
include ho

/-- An idle framer accepts the oldest word left, unless a reset comes from outside (R90, R149). -/
theorem State.acceptsCommand_of_outbox (hidle : s.framer.phase = .idle) (hr : (s.inputAt 0).rst = false) :
    s.acceptsCommand (decode w) := by
  have hturn : s.hostTurn = .offer w { s.host with outbox := ws } s.host := s.host.turn_of_outbox _ w ws ho
  refine ⟨(State.accepts_iff s).2 ⟨?_, ?_, hidle⟩, ?_⟩
  · rw [State.rst, hturn, State.input, hr]; rfl
  · rw [State.cmdValid, hturn]; rfl
  · rw [State.cmd, hturn]; rfl

theorem step_left_of_accepts {t : State} (ha : s.accepts = true) (h : step s = .next t) : s.host.Left ws t.host := by
  obtain ⟨-, -, ht⟩ := step_of_offer (s.host.turn_of_outbox s.cmdReady w ws ho) h
  rw [ht, if_pos ha]
  exact ⟨rfl, rfl, fun _ => rfl⟩

/-- The accepting edge drops the word; the edges to the command's end find the framer busy. -/
theorem run_left_of_acceptsCommand {t : State} {i : Instr} (hcmd : s.acceptsCommand i) (hU : 1 ≤ s.build.U)
    (hr : s.noResetFor (commandEdges s.build.U i + 1)) {k : Nat} (hk : k ≤ commandEdges s.build.U i)
    (h : run (k + 1) s = .next t) : s.host.Left ws t.host := by
  induction k generalizing t with
  | zero => exact step_left_of_accepts ho hcmd.1 (step_of_run (run_zero s) h)
  | succ k ih =>
    obtain ⟨u, hu, hready⟩ := commandsTakeTheirDurations s i hcmd hU hr k (by omega)
    have hbusy : u.cmdReady = false := hready.trans (decide_eq_false (by omega))
    have hu' := ih (by omega) hu
    exact hu'.trans (hu'.outbox ▸ step_left_of_busy hbusy (step_of_run hu h))

end

/-! ### Words on a free bus -/

theorem one_le_commandEdges {U : Nat} (hU : 1 ≤ U) {i : Instr} {w : CommandWord} (hw : encode i = some w) :
    1 ≤ commandEdges U i := by
  cases i with
  | reserved d => cases hw
  | start | stop | write _ => simp only [commandEdges]; omega

/-- From an idle framer `f`, with no other agent pulling and no reset, a host that has the words `ws` left, and maybe others
after them, is done with `ws` at the `n`-th edge after the one that accepts the first, and not before; the framer is then `g`,
and the bus has shown `es`. -/
def Framer.Issues (b : Build) (ws : List CommandWord) (n : Nat) (es : List BusEvent) (f g : Framer) : Prop :=
  ∀ (s : State) (rest : List CommandWord), s.build = b → s.framer = f → s.host.outbox = ws ++ rest →
    s.busFreeFor (n + 2) →
    ∃ t u, run n s = .next t ∧ t.framer.phase ≠ .idle ∧ run (n + 1) s = .next u ∧ u.framer = g ∧
      s.host.Left rest u.host ∧ busTrace (n + 1) s = es

section
variable {b : Build} {f g h : Framer}

/-- The next words are accepted at the edge after the last ones are done: `n` edges, that one, and `m`. -/
theorem Framer.Issues.trans {ws ws' : List CommandWord} {n m : Nat} {es es' : List BusEvent}
    (h₁ : f.Issues b ws n es g) (h₂ : g.Issues b ws' m es' h) :
    f.Issues b (ws ++ ws') (n + 1 + m) (es ++ es') h := by
  intro s rest hb hf ho hfree
  rw [List.append_assoc] at ho
  obtain ⟨-, u, -, -, hu, hg, hleft, hes⟩ := h₁ s (ws' ++ rest) hb hf ho fun j hj => hfree j (by omega)
  obtain ⟨v, x, hv, hbusy, hx, hh, hleft', hes'⟩ := h₂ u rest ((run_build hu).trans hb) hg hleft.outbox
    (State.busFreeFor_after_run (j := n + 1) hfree hu)
  refine ⟨v, x, (run_add _ _ s u hu).trans hv, hbusy, (run_add (n + 1) (m + 1) s u hu).trans hx, hh,
    hleft.trans hleft', ?_⟩
  rw [Nat.add_assoc (n + 1), busTrace_add (n + 1) (m + 1) hu, hes, hes']

/-- One word: its accepting edge, and the stretch of its command. -/
theorem Framer.Issues.word {i : Instr} {w : CommandWord} (hw : encode i = some w) (hidle : f.phase = .idle)
    (hU : 1 ≤ b.U) {e : Option BusEvent} (he : busEvent f.freeLines (acceptEdge b.U i f).freeLines = e)
    {es : List BusEvent} (hsends : (acceptEdge b.U i f).Sends b (commandEdges b.U i) es g) :
    f.Issues b [w] (commandEdges b.U i) (e.toList ++ es) g := by
  rintro s rest rfl rfl ho hfree
  have hcmd : s.acceptsCommand i :=
    decode_encode hw ▸ State.acceptsCommand_of_outbox ho hidle (by rw [hfree 0 (by omega)])
  have hr : s.noResetFor (commandEdges s.build.U i + 1) :=
    State.noResetFor_of_busFreeFor fun j hj => hfree j (by omega)
  have hstep := step_of_acceptsCommand hcmd
  have hfree' : (s.advance.onFramer (acceptEdge s.build.U i)).busFreeFor (commandEdges s.build.U i + 1) :=
    State.busFreeFor_after_run (j := 1) (fun j hj => hfree j (by omega)) (run_succ 0 s _ hstep)
  obtain ⟨u, hu, hg, hes⟩ := hsends (s.advance.onFramer (acceptEdge s.build.U i)) rfl rfl hfree'
  rw [← run_succ _ s _ hstep] at hu
  obtain ⟨k, hk⟩ := Nat.exists_eq_add_of_le' (one_le_commandEdges hU hw)
  obtain ⟨t, ht, hready⟩ := commandsTakeTheirDurations s i hcmd hU hr k (by omega)
  rw [← hk] at ht
  have hbusy : t.framer.phase ≠ .idle := fun hp =>
    absurd (hready.symm.trans (t.framer.cmdReady_iff.2 hp)) (by simp [hk])
  refine ⟨t, u, ht, hbusy, hu, hg, run_left_of_acceptsCommand ho hcmd hU hr le_rfl hu, ?_⟩
  rw [busTrace_succ _ hstep, hes, State.lines_of_busFree hfree, State.lines_of_busFree hfree', ← he]
  rfl

/-- A waiting phase and what its end shows. -/
theorem Framer.Sends.unit {p : Phase} (hp : f.phase = p) (hw : p.waits) (hU : f.wcnt + 1 = b.U)
    (hg : p.action b (!f.dioOe) { f with wcnt := 0 } = g) :
    f.Sends b b.U (busEvent f.freeLines g.freeLines).toList g := by
  subst hp
  have h := Framer.Sends.wait (b := b) hw
  rwa [hg, hU] at h

end

/-! ### The words of a FRAME (R132) -/

/-- `g` is an idle framer some words after the framer `f`, which have raised no flag. -/
structure Framer.IdleAfter (f g : Framer) : Prop where
  idle : g.phase = .idle
  illegal : g.illegal = f.illegal
  seqerr : g.seqerr = f.seqerr

theorem Framer.IdleAfter.trans {f g h : Framer} (h₁ : f.IdleAfter g) (h₂ : g.IdleAfter h) : f.IdleAfter h :=
  ⟨h₂.idle, h₂.illegal.trans h₁.illegal, h₂.seqerr.trans h₁.seqerr⟩

/-- Between frames: the framer is idle and drives neither line. -/
structure Framer.Released (f : Framer) : Prop where
  idle : f.phase = .idle
  clk : f.clkOe = false
  dio : f.dioOe = false

theorem frameEdges_cons (U : Nat) (byte : Byte) (bytes : List Byte) : frameEdges U (byte :: bytes).length =
    U + 1 + (19 * U + 8 + bytes.length * (19 * U + 9) + 1 + 3 * U) := by
  simp only [frameEdges, List.length_cons]
  ring

section
variable {b : Build} (hU : 1 ≤ b.U) {f : Framer}
include hU

/-- START from released lines makes a start condition and nothing else (R101). -/
theorem Framer.Released.issues_start (hf : f.Released) :
    ∃ g, f.Issues b [commandWord 0b00#2 0x00#8] b.U [.startCondition] g ∧ f.IdleAfter g := by
  have hwait := Framer.Sends.unit (f := acceptEdge b.U .start f) (p := .startW) rfl (by decide)
    (Nat.sub_add_cancel hU) rfl
  have hquiet : ∀ g : Framer, busEvent g.freeLines (({ g with wcnt := 0 } : Framer).enter .idle).freeLines = none :=
    fun g => busEvent_self g.freeLines
  have hfall : busEvent f.freeLines (acceptEdge b.U .start f).freeLines = some .startCondition := by
    simp [Framer.freeLines, acceptEdge, hf.clk, hf.dio, busEvent]
  have h := Framer.Issues.word (i := .start) rfl hf.idle hU hfall hwait
  simp only [Phase.action, hquiet] at h
  exact ⟨_, h, rfl, rfl, by simp [acceptEdge, Framer.startPreconditionFails, hf.clk, hf.dio]⟩

/-- WRITE drives CLK at once, so its accepting edge shows nothing, and then shows its byte (R110). -/
theorem Framer.issues_write (hidle : f.phase = .idle) (byte : Byte) :
    ∃ g, f.Issues b [commandWord 0b10#2 byte] (19 * b.U + 8) (byteEvents byte) g ∧ f.IdleAfter g ∧ g.clkOe = true :=
  ⟨_, .word (i := .write byte) rfl hidle hU (busEvent_of_clk_low _ rfl) (.write hU byte f),
    ⟨rfl, by rw [Framer.ackDone, Framer.sampleAck_eq]; rfl, by rw [Framer.ackDone, Framer.sampleAck_eq]; rfl⟩, rfl⟩

/-- STOP after a byte: CLK rises on a driven DIO, then DIO rises (R103). -/
theorem Framer.issues_stop (hidle : f.phase = .idle) (hclk : f.clkOe = true) :
    ∃ g, f.Issues b [commandWord 0b01#2 0x00#8] (3 * b.U) [.clockRise false, .stopCondition] g ∧ f.IdleAfter g ∧
      g.Released := by
  have hunit : b.U - 1 + 1 = b.U := Nat.sub_add_cancel hU
  have hrise : (acceptEdge b.U .stop f).Sends b b.U [.clockRise false]
      { f with clkOe := false, dioOe := true, wcnt := b.U - 1, phase := .stopW1 } :=
    .wait_rise (p := .stopW0) rfl (by decide) hunit rfl hclk rfl
  have hstop : Framer.Sends b b.U [.stopCondition]
      { f with clkOe := false, dioOe := true, wcnt := b.U - 1, phase := .stopW1 }
      { f with clkOe := false, dioOe := false, wcnt := b.U - 1, phase := .stopW2 } :=
    .unit (p := .stopW1) rfl (by decide) hunit rfl
  have hend : Framer.Sends b b.U []
      { f with clkOe := false, dioOe := false, wcnt := b.U - 1, phase := .stopW2 }
      { f with clkOe := false, dioOe := false, wcnt := 0, phase := .idle } :=
    .unit (p := .stopW2) rfl (by decide) hunit rfl
  have h := hrise.trans (hstop.trans hend)
  rw [show b.U + (b.U + b.U) = 3 * b.U by omega] at h
  have hlow : (acceptEdge b.U .stop f).freeLines.clk = false := congrArg not hclk
  exact ⟨_, .word (i := .stop) rfl hidle hU (busEvent_of_clk_low _ hlow) h, ⟨rfl, rfl, rfl⟩, rfl, rfl, rfl⟩

/-- The bytes of a FRAME, one WRITE each. -/
theorem Framer.issues_writes (hidle : f.phase = .idle) (byte : Byte) (bytes : List Byte) :
    ∃ g, f.Issues b ((byte :: bytes).map (commandWord 0b10#2)) (19 * b.U + 8 + bytes.length * (19 * b.U + 9))
      ((byte :: bytes).map byteEvents).flatten g ∧ f.IdleAfter g ∧ g.clkOe = true := by
  obtain ⟨g, hg, hafter, hclk⟩ := Framer.issues_write hU hidle byte
  induction bytes generalizing f byte g with
  | nil => exact ⟨g, by simpa using hg, hafter, hclk⟩
  | cons next bytes ih =>
    obtain ⟨g', hg', hafter', hclk'⟩ := Framer.issues_write hU hafter.idle next
    obtain ⟨k, hk, hlast, hdriven⟩ := ih hafter.idle next g' hg' hafter' hclk'
    refine ⟨k, ?_, hafter.trans hlast, hdriven⟩
    have h := hg.trans hk
    rwa [show 19 * b.U + 8 + 1 + (19 * b.U + 8 + bytes.length * (19 * b.U + 9)) =
      19 * b.U + 8 + (next :: bytes).length * (19 * b.U + 9) by rw [List.length_cons]; ring] at h

/-- A FRAME from released lines leaves them released (R132, R201). -/
theorem Framer.Released.issues_frame (hf : f.Released) {bytes : List Byte} (hne : bytes ≠ []) :
    ∃ g, f.Issues b (frameWords bytes) (frameEdges b.U bytes.length) (frameEvents bytes) g ∧ f.IdleAfter g ∧
      g.Released := by
  obtain ⟨byte, bytes, rfl⟩ := List.exists_cons_of_ne_nil hne
  obtain ⟨g, hstart, hg⟩ := hf.issues_start hU
  obtain ⟨k, hwrites, hk, hclk⟩ := Framer.issues_writes hU hg.idle byte bytes
  obtain ⟨l, hstop, hl, hreleased⟩ := Framer.issues_stop hU hk.idle hclk
  refine ⟨l, ?_, hg.trans (hk.trans hl), hreleased⟩
  rw [frameEdges_cons]
  exact hstart.trans (hwrites.trans hstop)

/-- The three frames of an update (R137, R150). -/
theorem Framer.Released.issues_show (hf : f.Released) (p : HostParams) (n : Fin 16) (seg : Four Byte) :
    ∃ g, f.Issues b (showWords p n seg) (showEdges b.U)
      (frameEvents [p.cmdData] ++ frameEvents (p.cmdAddr0 :: seg.toList) ++ frameEvents [displayControlByte p n]) g ∧
      f.IdleAfter g ∧ g.Released := by
  obtain ⟨g, hdata, hg, hgr⟩ := hf.issues_frame hU (bytes := [p.cmdData]) (by simp)
  obtain ⟨k, hsegments, hk, hkr⟩ := hgr.issues_frame hU (bytes := p.cmdAddr0 :: seg.toList) (by simp)
  obtain ⟨l, hcontrol, hl, hlr⟩ := hkr.issues_frame hU (bytes := [displayControlByte p n]) (by simp)
  refine ⟨l, ?_, hg.trans (hk.trans hl), hlr⟩
  have h := (hdata.trans hsegments).trans hcontrol
  rwa [show frameEdges b.U [p.cmdData].length + 1 + frameEdges b.U (p.cmdAddr0 :: seg.toList).length + 1 +
    frameEdges b.U [displayControlByte p n].length = showEdges b.U by
      simp only [frameEdges, showEdges, Four.toList, List.length_cons, List.length_nil]; omega] at h

end

/-- Settles O32: the words of the FRAME, START, its WRITEs and STOP, one after the other. -/
theorem frameTakesItsTimeAndShowsItsBytes : Obligations.FrameTakesItsTimeAndShowsItsBytes := by
  intro s bytes rest hne hU hidle hclk hdio ho hfree
  obtain ⟨g, hissues, ⟨hgidle, hill, hseq⟩, -, hgclk, hgdio⟩ :=
    Framer.Released.issues_frame hU ⟨hidle, hclk, hdio⟩ hne
  obtain ⟨t, u, ht, hbusy, hu, rfl, hleft, hes⟩ := hissues s rest rfl rfl ho hfree
  exact ⟨hes, ⟨t, ht, hbusy⟩, u, hu, hgidle, hgclk, hgdio, hleft.outbox, hill, hseq, hleft.session⟩

/-- The edge of a `show` of known characters: the framer stands still, and the words of the three frames are left
(R136, R137, log 9). -/
theorem step_of_call_show {s : State} {c : Four Char} {b : Four Byte} {rest : List HostMove}
    (hready : s.host.session.ready = true) (hidle : s.framer.phase = .idle) (ho : s.host.outbox = [])
    (hs : s.host.script = .call (.showChars c.toList) :: rest) (hr : s.input.rst = false)
    (hb : validateShow s.host.session.charMap c.toList = .ok (c, b)) :
    ∃ t, step s = .next t ∧ t.framer = s.framer ∧
      t.host.outbox = showWords s.host.params s.host.session.brightness (segmentBytes s.host.session.doublePoint b) ∧
      t.host.session = { s.host.session with lastShown := c } ∧ t.host.script = rest := by
  obtain ⟨t, hstep, hhost, hframer⟩ := callEdgeLoadsTheWords s _ rest hidle ho hs
  rw [performCall_showChars _ hready, performShow_of_ok _ hb] at hhost hframer
  exact ⟨t, hstep, by simpa [hr] using hframer, by rw [hhost], by rw [hhost], by rw [hhost]⟩

/-- Settles O33: the call's own edge shows nothing, and from it on the host has the words of the three frames. -/
theorem showTakesItsTimeAndSendsThreeFrames : Obligations.ShowTakesItsTimeAndSendsThreeFrames := by
  intro s c b rest hU hready hidle hclk hdio ho hs h0 h1 h2 h3 hfree
  have hin : s.inputAt 0 = _ := hfree 0 (by omega)
  obtain ⟨t, hstep, hframer, hout, hsession, hscript⟩ := step_of_call_show hready hidle ho hs
    (by rw [State.input, hin]) (validateShow_of_known h0 h1 h2 h3)
  have hrun := run_succ 0 s t hstep
  have hbuild : t.build = s.build := step_build hstep
  have hfree' : t.busFreeFor (showEdges s.build.U + 2) :=
    State.busFreeFor_after_run (j := 1) (fun j hj => hfree j (by omega)) hrun
  obtain ⟨g, hissues, ⟨hgidle, hill, hseq⟩, -, hgclk, hgdio⟩ := Framer.Released.issues_show hU
    ⟨hidle, hclk, hdio⟩ s.host.params s.host.session.brightness (segmentBytes s.host.session.doublePoint b)
  obtain ⟨u, v, hu, hbusy, hv, rfl, hleft, hes⟩ := hissues t [] hbuild hframer
    (hout.trans (List.append_nil _).symm) hfree'
  refine ⟨?_, ⟨t, hrun, ?_⟩, ⟨u, (run_succ _ s t hstep).trans hu, hbusy⟩, v, (run_succ _ s t hstep).trans hv, hgidle,
    hgclk, hgdio, hleft.outbox, fun hc => ?_, hleft.session.trans hsession, hill, hseq⟩
  · have hlines : s.lines = t.lines := by
      rw [State.lines_of_busFree hfree, State.lines_of_busFree hfree', hframer]
    rw [busTrace_succ _ hstep, hes, hlines, busEvent_self, segmentBytes_eq]
    rfl
  · have hstart := State.acceptsCommand_of_outbox hout (hframer ▸ hidle) (by rw [hfree' 0 (by omega)])
    rwa [decode_encode (i := .start) rfl] at hstart
  · exact (hleft.script (hscript ▸ hc)).trans hscript

end Sys2Proof.Machine
end

section
/-! Exceptions (60_exceptions.md): the causes of the two flags and of the acknowledgment sample at each kind of edge (R171,
R173, R174), and the host-level errors, which end a call before it issues a word (R179). -/

namespace Sys2Proof.Machine

/-! ### The causes at an accepting edge -/

/-- The decoder keeps `op`: the command of a word has the word's `op` in the opcode map (R71). -/
theorem op_decode (w : CommandWord) : Laws.OpField.op (decode w) = opField w := by
  have hop : opField w = 0#2 ∨ opField w = 1#2 ∨ opField w = 2#2 ∨ opField w = 3#2 := by
    generalize opField w = o; revert o; decide
  rcases hop with h | h | h | h
  · rw [decode_of_op_start h, h]; rfl
  · rw [decode_of_op_stop h, h]; rfl
  · rw [decode_of_op_write h, h]; rfl
  · rw [decode_of_op_reserved h, h]; rfl

theorem State.acceptsCommand.opField_eq {s : State} {i : Instr} (h : s.acceptsCommand i) :
    opField s.cmd = Laws.OpField.op i := by
  rw [← op_decode, h.2]

theorem acceptEdge_illegal (U : Nat) (i : Instr) (f : Framer) :
    (acceptEdge U i f).illegal = (f.illegal || decide (Laws.OpField.op i = 3#2)) := by
  cases i with
  | reserved _ => rfl
  | start | stop | write _ => exact (Bool.or_false _).symm

theorem acceptEdge_seqerr (U : Nat) (i : Instr) (f : Framer) :
    (acceptEdge U i f).seqerr = (f.seqerr || (decide (Laws.OpField.op i = 0#2) && (f.clkOe || f.dioOe))) := by
  cases i with
  | start => rfl
  | stop | write _ | reserved _ => exact (Bool.or_false _).symm

/-! ### The sample -/

/-- Only the edge that ends ACK_HIGH_W writes the sample, and only in a build with the option (R111). -/
theorem phaseEdge_ack (b : Build) (d : Bool) (f : Framer) :
    (phaseEdge b d f).ackValid =
      (if f.phase = .ackHighW ∧ f.wcnt = 0 ∧ b.ackSample = .present then !f.dioOe else f.ackValid) ∧
    (phaseEdge b d f).ackLevel =
      (if f.phase = .ackHighW ∧ f.wcnt = 0 ∧ b.ackSample = .present then d else f.ackLevel) := by
  rcases phaseEdge_cases b d f with ⟨-, h0, he⟩ | ⟨hz, he⟩
  · simp [he, h0]
  · rw [he]
    cases hp : f.phase with
    | ackHighW =>
      have h0 : f.wcnt = 0 := hz (by rw [hp]; decide)
      simp [Phase.action, Framer.sampleAck_eq, h0]
    | idle | startW | stopW0 | stopW1 | stopW2 | bitLowW | bitData | bitHighW | ackLowW | ackEndW => exact ⟨rfl, rfl⟩

/-! ### The step -/

/-- What each kind of edge does to the framer (R93). -/
theorem step_framer_cases {s t : State} (h : step s = .next t) :
    (s.rst = true ∧ t.framer = Framer.reset) ∨
    (s.rst = false ∧ s.accepts = true ∧ t.framer = acceptEdge s.build.U (decode s.cmd) s.framer) ∨
    (s.rst = false ∧ s.accepts = false ∧ t.framer = phaseEdge s.build s.dioIn s.framer) := by
  rcases step_cases s t h with ⟨hr, rfl⟩ | ⟨hr, ha, he⟩ | ⟨hr, ha, rfl⟩
  · exact .inl ⟨hr, rfl⟩
  · cases (exec_eq_acceptEdge _ _).symm.trans he
    exact .inr (.inl ⟨hr, ha, rfl⟩)
  · exact .inr (.inr ⟨hr, ha, rfl⟩)

/-- Settles O34: a reset clears all four registers, an accepting edge writes the flags alone, and an edge of a phase the
sample alone. -/
theorem flagsAreStickyAndHaveOneCause : Obligations.FlagsAreStickyAndHaveOneCause := by
  intro s t h
  rcases step_framer_cases h with ⟨hr, hf⟩ | ⟨hr, ha, hf⟩ | ⟨hr, ha, hf⟩
  · simp [hf, hr]
  · have hidle : s.framer.phase = .idle := ((State.accepts_iff s).1 ha).2.2
    obtain ⟨hvalid, hlevel⟩ := acceptEdge_ack s.build.U (decode s.cmd) s.framer
    simp [hf, hr, ha, hidle, acceptEdge_illegal, acceptEdge_seqerr, op_decode, hvalid, hlevel]
  · obtain ⟨hill, hseq⟩ := phaseEdge_flags s.build s.dioIn s.framer
    obtain ⟨hvalid, hlevel⟩ := phaseEdge_ack s.build s.dioIn s.framer
    simp [hf, hr, ha, hill, hseq, hvalid, hlevel]

/-- Settles O35: the causes of the two flags ask for different values of `op`, and both for `rst = 0`. -/
theorem atMostOneFlagPerEdge : Obligations.AtMostOneFlagPerEdge := by
  intro s t h
  obtain ⟨hill, hseq, -⟩ := flagsAreStickyAndHaveOneCause s t h
  have hillegal : s.rst = false → opField s.cmd ≠ 3#2 → t.framer.illegal = s.framer.illegal := fun hr hop => by
    simp [hill, hr, hop]
  have hseqerr : s.rst = false → opField s.cmd ≠ 0#2 → t.framer.seqerr = s.framer.seqerr := fun hr hop => by
    simp [hseq, hr, hop]
  have hno_rst : s.accepts = true → s.rst = false := fun ha => ((State.accepts_iff s).1 ha).1
  refine ⟨?_, fun hc => ?_, fun d hc => ?_, fun hr => ?_⟩
  · cases hr : s.rst with
    | true => exact .inr (.inr rfl)
    | false =>
      by_cases hop : opField s.cmd = 3#2
      · exact .inr (.inl (hseqerr hr (by rw [hop]; decide)))
      · exact .inl (hillegal hr hop)
  · exact hillegal (hno_rst hc.1) (by rw [hc.opField_eq]; decide)
  · exact hseqerr (hno_rst hc.1) (by rw [hc.opField_eq]; exact (by decide : (3#2 : BitVec 2) ≠ 0#2))
  · simp [State.accepts, hill, hseq, hr]

/-! ### Host-level errors (R147, R179) -/

/-- The call ended in a host-level error (R147). -/
def CallResult.fails : CallResult → Bool
  | .invalidArgument _ | .illegalState _ => true
  | .noCall | .done | .theSession | .bool _ | .level _ => false

theorem CallResult.fails_iff (r : CallResult) :
    r.fails = true ↔ (∃ e, r = .invalidArgument e) ∨ ∃ e, r = .illegalState e := by
  cases r <;> simp [CallResult.fails]

/-- If the call fails, it issues nothing and resets nothing. -/
def CallOutcome.QuietIfFailed (o : CallOutcome) : Prop :=
  o.result.fails = true → o.words = [] ∧ o.resetsFramer = false

theorem CallOutcome.quiet_quietIfFailed (s : Session) (r : CallResult) : (CallOutcome.quiet s r).QuietIfFailed :=
  fun _ => ⟨rfl, rfl⟩

/-- The validation comes before any word (R135). -/
theorem performShow_quietIfFailed (p : HostParams) (s : Session) (cs : List Char) :
    (performShow p s cs).QuietIfFailed := by
  cases hv : validateShow s.charMap cs with
  | error e => rw [performShow_of_error p hv]; exact CallOutcome.quiet_quietIfFailed _ _
  | ok cb => rw [performShow_of_ok p hv]; exact nofun

theorem flush_quietIfFailed (p : HostParams) (s : Session) (a : Bool) : (flush p s a).QuietIfFailed := by
  cases a with
  | false => exact CallOutcome.quiet_quietIfFailed _ _
  | true => exact performShow_quietIfFailed p s _

theorem performSetBrightness_quietIfFailed (p : HostParams) (s : Session) (v : Int) (a : Bool) :
    (performSetBrightness p s v a).QuietIfFailed := by
  unfold performSetBrightness
  split
  · exact CallOutcome.quiet_quietIfFailed _ _
  · exact flush_quietIfFailed p _ a

/-- Only a `setup` that succeeds resets the framer (R145). -/
theorem performSetup_quietIfFailed (p : HostParams) (s : Session) (scheme : Option NumberingScheme) (ok : Bool) :
    (performSetup p s scheme ok).QuietIfFailed := by
  cases hr : s.ready with
  | true => rw [performSetup_of_ready p hr]; exact CallOutcome.quiet_quietIfFailed _ _
  | false =>
    cases scheme with
    | none => rw [performSetup_none p hr]; exact CallOutcome.quiet_quietIfFailed _ _
    | some k => rw [performSetup_some p hr]; exact nofun

theorem whenReady_quietIfFailed {s : Session} {o : CallOutcome} (h : o.QuietIfFailed) :
    (whenReady s o).QuietIfFailed := by
  cases hr : s.ready with
  | true => rwa [whenReady_of_ready hr]
  | false => rw [whenReady_of_not_ready hr]; exact CallOutcome.quiet_quietIfFailed _ _

theorem performCall_quietIfFailed (p : HostParams) (s : Session) (c : Call) : (performCall p s c).QuietIfFailed := by
  cases c with
  | setup scheme _ _ ok => exact performSetup_quietIfFailed p s scheme ok
  | showChars cs => exact whenReady_quietIfFailed (performShow_quietIfFailed p s cs)
  | setDoublePoint v a => exact whenReady_quietIfFailed (flush_quietIfFailed p _ a)
  | setBrightness v a => exact whenReady_quietIfFailed (performSetBrightness_quietIfFailed p s v a)
  | getInstance | getBrightness | isShowDoublePoint | addCharacter _ _ =>
    exact whenReady_quietIfFailed (CallOutcome.quiet_quietIfFailed _ _)

/-- Settles O54: every call checks before it issues, so the edge of one that fails loads no word and resets nothing. -/
theorem failedCallsNeverReachTheFramer : Obligations.FailedCallsNeverReachTheFramer := by
  have hquiet := fun p s c hfail => performCall_quietIfFailed p s c ((CallResult.fails_iff _).2 hfail)
  refine ⟨hquiet, fun s c rest hidle ho hs hr hfail => ?_⟩
  obtain ⟨hwords, hreset⟩ := hquiet _ _ _ hfail
  obtain ⟨t, hstep, hhost, hframer⟩ := callEdgeLoadsTheWords s c rest hidle ho hs
  exact ⟨t, hstep, by simpa [hr, hreset] using hframer, by rw [hhost]; exact hwords, by rw [hhost]⟩

end Sys2Proof.Machine
end

section
/-! The build the machine has at reset is one R8 allows, whatever the open parameters are (00_scope.md R8). -/

namespace Sys2Proof

/-- `T_UNIT` is 1 ms and an excess. -/
theorem Config.one_le_timeUnit : 1 ≤ Config.timeUnit :=
  le_add_of_nonneg_right (abs_nonneg _)

theorem Config.unitCycles_pos : (0 : Rat) < Config.unitCycles :=
  Nat.cast_pos.2 (Nat.succ_pos _)

/-- `U` cycles last `T_UNIT` and a slack. -/
theorem Config.unitCycles_mul_clockPeriod :
    (Config.unitCycles : Rat) * Config.clockPeriod = Config.timeUnit + |Config.clockSlack| :=
  mul_div_cancel₀ _ Config.unitCycles_pos.ne'

theorem Config.timeUnit_le : Config.timeUnit ≤ (Config.unitCycles : Rat) * Config.clockPeriod := by
  rw [Config.unitCycles_mul_clockPeriod]
  exact le_add_of_nonneg_right (abs_nonneg _)

theorem Config.clockPeriod_pos : 0 < Config.clockPeriod := by
  have hcycles : 0 < (Config.unitCycles : Rat) * Config.clockPeriod :=
    zero_lt_one.trans_le (Config.one_le_timeUnit.trans Config.timeUnit_le)
  exact pos_of_mul_pos_right hcycles Config.unitCycles_pos.le

theorem Config.build_wf : Config.build.wf :=
  ⟨Config.clockPeriod_pos, Config.one_le_timeUnit, Nat.succ_pos _, Config.timeUnit_le⟩

end Sys2Proof
end

section
/-! Reset (70_reset_and_hazards.md R190): what a reset edge leaves, and the reset state as the ground of the invariants: the
registers, the build, and a host whose script is any list of calls (45_host-sequences.md R149). -/

namespace Sys2Proof.Machine

/-! ### The reset edge -/

/-- A ready framer accepts whatever is offered at an edge with `rst = 0` (R90). -/
theorem State.accepts_of_cmdReady {s : State} (h : s.cmdReady = true) : s.accepts = (!s.rst && s.cmdValid) := by
  rw [State.accepts, h, Bool.and_true]

/-- Settles O38: the reset edge leaves `Framer.reset`, whose phase is IDLE, so the next edge is free to accept. -/
theorem resetTakesEveryRegister : Obligations.ResetTakesEveryRegister := by
  intro s hr
  have hready : (resetEdge s.advance).cmdReady = true := rfl
  exact ⟨_, step_of_rst s hr, busyFramerIgnoresTheCommandPort.2 s hr, rfl, hready, Framer.status_reset _, rfl, rfl,
    State.accepts_of_cmdReady hready⟩

/-! ### The reset state -/

/-- A byte with 0 appended as its low nibble has none of the bits of 0x0F (R131). -/
theorem append_zero_and_low_nibble : ∀ high : BitVec 4, (high ++ 0#4) &&& 0x0F#8 = 0x00#8 := by decide

/-- Settles O39: the parameters the model leaves open are bound by how the reset state is built from them. -/
theorem resetStateHoldsTheSpecsValues : Obligations.ResetStateHoldsTheSpecsValues :=
  ⟨rfl, rfl, rfl, append_zero_and_low_nibble _, rfl, Config.build_wf⟩

/-! ### The invariants at reset -/

/-- Settles O42: a reset framer meets its part of the invariant in any build, and `U >= 1` is R8's. -/
theorem invariantHoldsAtReset : Obligations.InvariantHoldsAtReset := by
  obtain ⟨-, -, hU, -⟩ := Config.build_wf
  obtain ⟨hwait, hshape, hack⟩ := Framer.reset_inv Config.build
  exact ⟨hU, hwait, hshape, hack, rfl⟩

theorem callsOnly_map_call (calls : List Call) : callsOnly (calls.map .call) = true := by
  induction calls with
  | nil => rfl
  | cons c calls ih => exact ih

/-- The invariant speaks of the framer, the build and the host's session alone. -/
theorem State.Inv.with_script {s : State} (h : s.Inv) (script : List HostMove) :
    State.Inv { s with host := { s.host with script := script } } :=
  ⟨h.unit, h.wait, h.shape, h.ack, h.table⟩

/-- Settles O44: the script holds calls only, and no word is left of any call beside released lines. -/
theorem sessionTrafficHoldsAtReset : Obligations.SessionTrafficHoldsAtReset := fun calls =>
  ⟨⟨invariantHoldsAtReset.with_script _, callsOnly_map_call calls, rfl⟩, rfl⟩

end Sys2Proof.Machine
end
